-- ==== Sys2Proof/Word.lean ====
section
/-! DEFINITION. The word types of the PCG-MCG engine (00_scope.md R5, section 6; 30_encoding.md R30, R31). Every value is
an unsigned bit vector of a stated width; arithmetic on a `Word` wraps modulo 2^64. -/

namespace Sys2Proof

/-- A 64-bit state, seed, step count, multiplier or response datum (R5). -/
abbrev Word := BitVec 64

/-- A 32-bit output (R46). -/
abbrev Output := BitVec 32

/-- One byte of a byte seed or of a filled buffer (R21, R23). -/
abbrev Byte := BitVec 8

/-- A context index as a command word carries it, the fields `gd` and `gs` (R30). -/
abbrev CtxIx := BitVec 4

/-- One 80-bit command word `CMD[79:0]` (R30). -/
abbrev CmdWord := BitVec 80

/-- One 68-bit response word `RSP[67:0]` (R31). -/
abbrev RspWord := BitVec 68

end Sys2Proof
end

