-- ==== Sys2Proof/Config.lean ====
section
/-! DEFINITION. What is fixed for the life of an engine instance (00_scope.md R3), and the free values of what the spec
leaves unspecified (10_state.md R18, 93_implementation_defined.md U1, U2). -/

namespace Sys2Proof

/-- The two instance parameters (R3): `ngen` is `NGEN`, `hasSeedb` is `HAS_SEEDB`. -/
structure Params where
  ngen     : Nat
  hasSeedb : Bool
deriving DecidableEq, Repr

/-- The defaults of R3: four contexts, byte seeding present. -/
def Params.default : Params := { ngen := 4, hasSeedb := true }

/-- The legal values of R3: `NGEN` is 1 to 16; both values of `HAS_SEEDB` are legal. -/
abbrev Params.Legal (p : Params) : Prop := 1 ≤ p.ngen ∧ p.ngen ≤ 16

/-- FREE VALUE (log 8): what a reset leaves in a register whose content R18 and R70 leave unspecified. It has no body,
so nothing can be proved of any value of it; the argument is a counter held in the state, so each draw is a fresh one. -/
opaque Config.unspecified : Nat → Word

end Sys2Proof
end

