-- ==== Sys2Proof/Syntax.lean ====
section
/-! DEFINITION. The nine commands of the engine (30_encoding.md R33), one constructor per row of spec/opcode_table.json,
and which contexts each reads and writes (10_state.md R10). -/

namespace Sys2Proof

/-- A command with its operands as the command word carries them (R30, R38). `gd` is the context worked on or the
destination, `gs` the source context of the two-context commands. -/
inductive Instr where
  /-- `SEED64 gd, imm64` (R41). -/
  | seed64 (gd : CtxIx) (imm : Word)
  /-- `SEEDB gd, [b0, ..., b7]` (R42); the eight bytes are the byte lanes of `opd`, `b0` the least significant (R38). -/
  | seedb (gd : CtxIx) (opd : Word)
  /-- `STEP gd` (R47). -/
  | step (gd : CtxIx)
  /-- `NEXT32 gd` (R48). -/
  | next32 (gd : CtxIx)
  /-- `NEXT64 gd` (R49). -/
  | next64 (gd : CtxIx)
  /-- `SKIP gd, n` (R53); `n` is a two's-complement step count. -/
  | skip (gd : CtxIx) (n : Word)
  /-- `NEWSTREAM gd, gs` (R57): `gs` the parent, `gd` the child. -/
  | newstream (gd gs : CtxIx)
  /-- `CLONE gd, gs` (R58). -/
  | clone (gd gs : CtxIx)
  /-- `RDSTATE gd` (R59). -/
  | rdstate (gd : CtxIx)
deriving DecidableEq, Repr

/-- The contexts whose state a command reads (the table of R10). -/
def Instr.reads : Instr → List CtxIx
  | .seed64 _ _ => []
  | .seedb _ _ => []
  | .step gd => [gd]
  | .next32 gd => [gd]
  | .next64 gd => [gd]
  | .skip gd _ => [gd]
  | .newstream _ gs => [gs]
  | .clone _ gs => [gs]
  | .rdstate gd => [gd]

/-- The contexts whose state a command writes, in the order written (the table of R10). -/
def Instr.writes : Instr → List CtxIx
  | .seed64 gd _ => [gd]
  | .seedb gd _ => [gd]
  | .step gd => [gd]
  | .next32 gd => [gd]
  | .next64 gd => [gd]
  | .skip gd _ => [gd]
  | .newstream gd gs => [gs, gd]
  | .clone gd _ => [gd]
  | .rdstate _ => []

/-- The contexts a command names, `gd` first: those whose index R35 step 3 compares with `NGEN`. -/
def Instr.names : Instr → List CtxIx
  | .seed64 gd _ => [gd]
  | .seedb gd _ => [gd]
  | .step gd => [gd]
  | .next32 gd => [gd]
  | .next64 gd => [gd]
  | .skip gd _ => [gd]
  | .newstream gd gs => [gd, gs]
  | .clone gd gs => [gd, gs]
  | .rdstate gd => [gd]

/-- The contexts whose valid bit a command sets (R11). -/
def Instr.seeds : Instr → List CtxIx
  | .seed64 gd _ => [gd]
  | .seedb gd _ => [gd]
  | .step _ => []
  | .next32 _ => []
  | .next64 _ => []
  | .skip _ _ => []
  | .newstream gd _ => [gd]
  | .clone gd _ => [gd]
  | .rdstate _ => []

end Sys2Proof
end

