-- ==== Sys2Proof/WellFormed.lean ====
section
/-! DEFINITION. Which commands an engine with given parameters has (30_encoding.md R33, R34; 00_scope.md R3) and which
name only contexts that exist (10_state.md R10, 60_exceptions.md R61). Every operand width is in `Instr`'s types. -/

namespace Sys2Proof

/-- The command exists on an engine with parameters `p`: only `SEEDB` is optional (R3, R33, R42). -/
def Instr.encodable (p : Params) : Instr → Bool
  | .seed64 _ _ => true
  | .seedb _ _ => p.hasSeedb
  | .step _ => true
  | .next32 _ => true
  | .next64 _ => true
  | .skip _ _ => true
  | .newstream _ _ => true
  | .clone _ _ => true
  | .rdstate _ => true

/-- Every context the command names exists: its index is below `NGEN` (R61). -/
def Instr.inRange (p : Params) (i : Instr) : Bool :=
  i.names.all fun g => decide (g.toNat < p.ngen)

/-- A command that neither `ILLEGAL_CMD` nor `BAD_CONTEXT` can answer on an engine with parameters `p` (R60, R61). -/
def Instr.wellFormed (p : Params) (i : Instr) : Bool :=
  i.encodable p && i.inRange p

end Sys2Proof
end

