-- ==== Sys2Proof/Decode.lean ====
section
/-! DEFINITION. The command word (30_encoding.md R30, R32, R33), which words are illegal (R34), the decoder, total on all
2^80 words and rejecting by name, and the encoder written from the same tables. -/

namespace Sys2Proof

/-- The three command formats (R32). -/
inductive Format where
  /-- Context and operand: `gs`, `rsv` must be zero. -/
  | i
  /-- Context only: `gs`, `rsv`, `opd` must be zero. -/
  | u
  /-- Two contexts: `rsv`, `opd` must be zero. -/
  | r
deriving DecidableEq, Repr

/-- Why a word is illegal, one name per case of R34. All of them are answered `ILLEGAL_CMD`; which name is given to a word
that is illegal in several ways is a DESIGN CHOICE no response shows (log 16; safe). -/
inductive DecodeError where
  /-- `op` is `0x0` or `0xA` to `0xF`. -/
  | reservedOp
  /-- `op` is `0x2` on an engine without `HAS_SEEDB`. -/
  | seedbAbsent
  /-- `rsv` is not zero. -/
  | rsvNotZero
  /-- Format I or U, and `gs` is not zero. -/
  | gsNotZero
  /-- Format U or R, and `opd` is not zero. -/
  | opdNotZero
deriving DecidableEq, Repr

/-- The fields of a command word, the same in every format (R30). -/
structure Fields where
  op  : BitVec 4
  gd  : CtxIx
  gs  : CtxIx
  rsv : BitVec 4
  opd : Word
deriving DecidableEq, Repr

/-- R35 step 1: the fields of a word, pulled out once. -/
def fieldsOf (w : CmdWord) : Fields :=
  { op  := w.extractLsb' 76 4
    gd  := w.extractLsb' 72 4
    gs  := w.extractLsb' 68 4
    rsv := w.extractLsb' 64 4
    opd := w.extractLsb' 0 64 }

/-- The word with given fields, most significant first (R30). -/
def packFields (f : Fields) : CmdWord :=
  f.op ++ f.gd ++ f.gs ++ f.rsv ++ f.opd

/-- The format of an opcode on an engine with parameters `p`, none where the opcode is reserved (R33). -/
def formatOf (p : Params) (op : BitVec 4) : Option Format :=
  match op with
  | 0x1#4 => some .i
  | 0x2#4 => if p.hasSeedb then some .i else none
  | 0x3#4 => some .u
  | 0x4#4 => some .u
  | 0x5#4 => some .u
  | 0x6#4 => some .i
  | 0x7#4 => some .r
  | 0x8#4 => some .r
  | 0x9#4 => some .u
  | _ => none

/-- A word of format I: its command, or the must-be-zero field that is not zero (R32). -/
def acceptI (f : Fields) (c : Instr) : Except DecodeError Instr :=
  if f.rsv ≠ 0 then .error .rsvNotZero
  else if f.gs ≠ 0 then .error .gsNotZero
  else .ok c

/-- A word of format U: its command, or the must-be-zero field that is not zero (R32). -/
def acceptU (f : Fields) (c : Instr) : Except DecodeError Instr :=
  if f.rsv ≠ 0 then .error .rsvNotZero
  else if f.gs ≠ 0 then .error .gsNotZero
  else if f.opd ≠ 0 then .error .opdNotZero
  else .ok c

/-- A word of format R: its command, or the must-be-zero field that is not zero (R32). -/
def acceptR (f : Fields) (c : Instr) : Except DecodeError Instr :=
  if f.rsv ≠ 0 then .error .rsvNotZero
  else if f.opd ≠ 0 then .error .opdNotZero
  else .ok c

/-- The command of a word's fields by the opcode map of R33, or why the word is illegal (R34). -/
def decodeFields (p : Params) (f : Fields) : Except DecodeError Instr :=
  match f.op with
  | 0x1#4 => acceptI f (.seed64 f.gd f.opd)
  | 0x2#4 => if p.hasSeedb then acceptI f (.seedb f.gd f.opd) else .error .seedbAbsent
  | 0x3#4 => acceptU f (.step f.gd)
  | 0x4#4 => acceptU f (.next32 f.gd)
  | 0x5#4 => acceptU f (.next64 f.gd)
  | 0x6#4 => acceptI f (.skip f.gd f.opd)
  | 0x7#4 => acceptR f (.newstream f.gd f.gs)
  | 0x8#4 => acceptR f (.clone f.gd f.gs)
  | 0x9#4 => acceptU f (.rdstate f.gd)
  | _ => .error .reservedOp

/-- The decoder of an engine with parameters `p` (R35 steps 1 and 2). -/
def decode (p : Params) (w : CmdWord) : Except DecodeError Instr :=
  decodeFields p (fieldsOf w)

/-- The cases of R34 on a word's fields, word for word and apart from the decoder. -/
abbrev IllegalFields (p : Params) (op gs rsv : BitVec 4) (opd : Word) : Prop :=
  (op = 0x0 ∨ 0xA ≤ op) ∨
  (op = 0x2 ∧ p.hasSeedb = false) ∨
  rsv ≠ 0 ∨
  ((formatOf p op = some .i ∨ formatOf p op = some .u) ∧ gs ≠ 0) ∨
  ((formatOf p op = some .u ∨ formatOf p op = some .r) ∧ opd ≠ 0)

/-- R34: the command word is illegal on an engine with parameters `p`. -/
abbrev Illegal (p : Params) (w : CmdWord) : Prop :=
  IllegalFields p (w.extractLsb' 76 4) (w.extractLsb' 68 4) (w.extractLsb' 64 4) (w.extractLsb' 0 64)

/-- The fields of a command's one legal word (R33, R36): must-be-zero fields are zero. -/
def Instr.fields : Instr → Fields
  | .seed64 gd imm => { op := 0x1, gd := gd, gs := 0, rsv := 0, opd := imm }
  | .seedb gd opd => { op := 0x2, gd := gd, gs := 0, rsv := 0, opd := opd }
  | .step gd => { op := 0x3, gd := gd, gs := 0, rsv := 0, opd := 0 }
  | .next32 gd => { op := 0x4, gd := gd, gs := 0, rsv := 0, opd := 0 }
  | .next64 gd => { op := 0x5, gd := gd, gs := 0, rsv := 0, opd := 0 }
  | .skip gd n => { op := 0x6, gd := gd, gs := 0, rsv := 0, opd := n }
  | .newstream gd gs => { op := 0x7, gd := gd, gs := gs, rsv := 0, opd := 0 }
  | .clone gd gs => { op := 0x8, gd := gd, gs := gs, rsv := 0, opd := 0 }
  | .rdstate gd => { op := 0x9, gd := gd, gs := 0, rsv := 0, opd := 0 }

/-- The command word of a command (R30, R36). -/
def encode (i : Instr) : CmdWord :=
  packFields i.fields

/-- One row of R33's match and mask table. -/
structure OpRow where
  mnemonic : String
  bits     : CmdWord
  mask     : CmdWord
deriving DecidableEq, Repr

/-- R33's match and mask table, in its order. -/
def opTable : List OpRow :=
  [ ⟨"SEED64",    0x1000_0000000000000000, 0xF0FF_0000000000000000⟩,
    ⟨"SEEDB",     0x2000_0000000000000000, 0xF0FF_0000000000000000⟩,
    ⟨"STEP",      0x3000_0000000000000000, 0xF0FF_FFFFFFFFFFFFFFFF⟩,
    ⟨"NEXT32",    0x4000_0000000000000000, 0xF0FF_FFFFFFFFFFFFFFFF⟩,
    ⟨"NEXT64",    0x5000_0000000000000000, 0xF0FF_FFFFFFFFFFFFFFFF⟩,
    ⟨"SKIP",      0x6000_0000000000000000, 0xF0FF_0000000000000000⟩,
    ⟨"NEWSTREAM", 0x7000_0000000000000000, 0xF00F_FFFFFFFFFFFFFFFF⟩,
    ⟨"CLONE",     0x8000_0000000000000000, 0xF00F_FFFFFFFFFFFFFFFF⟩,
    ⟨"RDSTATE",   0x9000_0000000000000000, 0xF0FF_FFFFFFFFFFFFFFFF⟩ ]

/-- A command's mnemonic (R33). -/
def Instr.mnemonic : Instr → String
  | .seed64 _ _ => "SEED64"
  | .seedb _ _ => "SEEDB"
  | .step _ => "STEP"
  | .next32 _ => "NEXT32"
  | .next64 _ => "NEXT64"
  | .skip _ _ => "SKIP"
  | .newstream _ _ => "NEWSTREAM"
  | .clone _ _ => "CLONE"
  | .rdstate _ => "RDSTATE"

/-- The word of an opcode-table row whose bits are `w`: a command is one 80-bit word (R30), so bit 0 is `CMD[0]`, and every
bit above `nbits` is zero. -/
def tableWord (nbits w : Nat) : CmdWord :=
  BitVec.ofNat 80 (w % 2 ^ nbits)

/-- The command the decoder of an engine with the default parameters (R3) reads from such a word. -/
def decodeTableWord (nbits w : Nat) : Option Instr :=
  match decode Params.default (tableWord nbits w) with
  | .ok i => some i
  | .error _ => none

end Sys2Proof
end

