-- ==== Sys2Proof/Machine/State.lean ====
section
/-! DEFINITION. The state of the engine (10_state.md R10, R11, R15, R19) with its instance parameters (00_scope.md R3), the
host's side of the command port (10_state.md R13, 30_encoding.md R31), and the state after reset (10_state.md R18). -/

namespace Sys2Proof.Machine

/-- The status of a response (R31). -/
inductive Status where
  /-- Status 0. -/
  | ok
  /-- Status 1, R60. -/
  | illegalCmd
  /-- Status 2, R61. -/
  | badContext
  /-- Status 3, R62. -/
  | notSeeded
deriving DecidableEq, Repr

/-- What the outside does to the engine, one at a time (10_state.md R13; 70_reset_and_hazards.md R70; log 6, log 8). -/
inductive HostEvent where
  /-- The host issues a command word. -/
  | command (w : CmdWord)
  /-- The reset input is applied; `some w` when it arrives while command `w` is in progress, none between commands. -/
  | reset (inProgress : Option CmdWord)
deriving DecidableEq, Repr

/-- The hidden working registers of the `SKIP` sequencer (R15, R54). -/
structure SkipSeq where
  acc  : Word
  base : Word
  cnt  : Word
deriving DecidableEq, Repr

/-- The hidden working registers of the `SEEDB` sequencer (R15, R44). -/
structure SeedSeq where
  sacc : Word
  sidx : BitVec 4
deriving DecidableEq, Repr

/-- The machine. `params` never changes (log 1). `g` and `v` are `G` and `V` (R19): a slot for each value of a 4-bit
index, of which those below `params.ngen` are the engine's contexts and the others do not exist (DESIGN CHOICE, log 2; safe).
`skipSeq`, `seedSeq` are the hidden registers of R15. `input` is what the host has issued and the engine has not taken,
`responses` the responses emitted, oldest first (DESIGN CHOICE, log 6; safe). `fresh` counts the free values drawn
(the model's own, log 9). -/
structure State where
  params    : Params
  g         : Vector Word 16
  v         : Vector Bool 16
  skipSeq   : SkipSeq
  seedSeq   : SeedSeq
  input     : List HostEvent
  responses : List RspWord
  fresh     : Nat
deriving DecidableEq, Repr

/-- Reasons the machine stops with a fault: none. The spec has no fault that stops the engine; its three errors are
answered by a response and the machine goes on (60_exceptions.md R63, R66; log 11; safe). -/
inductive Fault where
deriving DecidableEq, Repr

/-- Reasons the model has no meaning for a command. -/
inductive Refusal where
  /-- Raised only by an arm of `exec` that has no meaning yet; no arm is left so. Safe: the model stops where the engine
  goes on. -/
  | notModelled (mnemonic : String)
deriving DecidableEq, Repr

/-- What a register holds after power-on where R18 leaves it unspecified: all ones, a value that is neither 0 nor 1
(91_not_in_source.md N3 forbids assuming either). DESIGN CHOICE (log 3, log 4; unsafe). -/
def unspecifiedAtReset : Word := 0xFFFFFFFFFFFFFFFF

/-- The state after reset of an engine with parameters `p`, whose unspecified contexts hold `g` (R18): every valid bit is
0, nothing is issued and nothing answered. -/
def State.resetOf (p : Params) (g : Vector Word 16) (skipSeq : SkipSeq) (seedSeq : SeedSeq) : State :=
  { params := p
    g := g
    v := Vector.replicate 16 false
    skipSeq := skipSeq
    seedSeq := seedSeq
    input := []
    responses := []
    fresh := 0 }

/-- The machine right after reset (R18, R70), with the default parameters of R3. The contents R18 leaves unspecified are
named in log 3 (`G`) and log 4 (the hidden registers); no command reads them (R19). -/
def State.reset : State :=
  State.resetOf Params.default (Vector.replicate 16 unspecifiedAtReset)
    { acc := unspecifiedAtReset, base := unspecifiedAtReset, cnt := unspecifiedAtReset }
    { sacc := unspecifiedAtReset, sidx := 0xF }

end Sys2Proof.Machine
end

