-- ==== Sys2Proof/Machine/Ops.lean ====
section
/-! DEFINITION. The named operations over the engine's state: reading and writing a context's register, emitting a response
(30_encoding.md R31), raising an error (60_exceptions.md R63), completing a command, and applying reset
(70_reset_and_hazards.md R70). -/

namespace Sys2Proof.Machine

/-- `G[i]` (R10). -/
def State.getG (s : State) (i : CtxIx) : Word :=
  s.g[i.toNat]'i.isLt

/-- `G[i] <- x` (R10): the whole register, no other context (R17, R25). -/
def State.setG (s : State) (i : CtxIx) (x : Word) : State :=
  { s with g := s.g.set i.toNat x i.isLt }

/-- Write the hidden registers of the `SKIP` sequencer (R15). -/
def State.setSkipSeq (s : State) (r : SkipSeq) : State :=
  { s with skipSeq := r }

/-- Write the hidden registers of the `SEEDB` sequencer (R15). -/
def State.setSeedSeq (s : State) (r : SeedSeq) : State :=
  { s with seedSeq := r }

/-- The status codes of R31; 4 to 15 are never emitted. -/
def Status.code : Status → BitVec 4
  | .ok => 0x0
  | .illegalCmd => 0x1
  | .badContext => 0x2
  | .notSeeded => 0x3

/-- The response word with status `st` and data `d`: `RSP[67:64]`, `RSP[63:0]` (R31). -/
def responseWord (st : Status) (d : Word) : RspWord :=
  st.code ++ d

/-- The field `status` of a response word (R31). -/
def rspStatus (r : RspWord) : BitVec 4 := r.extractLsb' 64 4

/-- The field `data` of a response word (R31). -/
def rspData (r : RspWord) : Word := r.extractLsb' 0 64

/-- `respond(st, d)`: the engine emits one response word (00_scope.md section 6; R31). -/
def State.respond (s : State) (st : Status) (d : Word) : State :=
  { s with responses := s.responses ++ [responseWord st d] }

/-- `raise Error(st)` (R63): no state changes, the response is `st` with data 0, and the machine goes on. There is no saved
register, no handler and nothing to return to (R66). -/
def raiseError (st : Status) (s : State) : Host.Outcome State Fault Refusal :=
  .next (s.respond st 0)

/-- A command after decoding (R35 steps 3 to 5): the first check that fails raises its error; otherwise the command's
pseudocode `body` gives the new state and the data of its response `OK`. -/
def runCommand (check : Option Status) (body : State → State × Word) (s : State) :
    Host.Outcome State Fault Refusal :=
  match check with
  | some st => raiseError st s
  | none => .next ((body s).1.respond .ok (body s).2)

/-- Reset (R70): every valid bit 0 (R18), the parameters kept; every `G[i]` and every hidden register unspecified, a FREE
VALUE each (log 8, log 9). The host's own records, what it has issued and the responses it has, are not the engine's. -/
def State.applyReset (s : State) : State :=
  { s with
    g := Vector.ofFn fun (i : Fin 16) => Config.unspecified (s.fresh + i.val)
    v := Vector.replicate 16 false
    skipSeq :=
      { acc := Config.unspecified (s.fresh + 16)
        base := Config.unspecified (s.fresh + 17)
        cnt := Config.unspecified (s.fresh + 18) }
    seedSeq :=
      { sacc := Config.unspecified (s.fresh + 19)
        sidx := (Config.unspecified (s.fresh + 20)).setWidth 4 }
    fresh := s.fresh + 21 }

/-- The host side of the port: the oldest event the engine has not taken, with the state after taking it; none when nothing
is issued (10_state.md R13: the list is consumed from the head; 20_memory.md R26). -/
def State.takeEvent (s : State) : Option (HostEvent × State) :=
  match s.input with
  | [] => none
  | e :: rest => some (e, { s with input := rest })

end Sys2Proof.Machine
end

