-- ==== Sys2Proof/Machine/Flags.lean ====
section
/-! DEFINITION. The valid bits, the engine's only flags (10_state.md R11), and the checks every command passes before its
first state write, in the order of 30_encoding.md R35 steps 3 and 4 (60_exceptions.md R61, R62, R65). -/

namespace Sys2Proof.Machine

/-- `V[i]` (R11). -/
def State.getV (s : State) (i : CtxIx) : Bool :=
  s.v[i.toNat]'i.isLt

/-- `V[i] <- 1` (R11): no command clears a valid bit. -/
def State.setV (s : State) (i : CtxIx) : State :=
  { s with v := s.v.set i.toNat true i.isLt }

/-- R35 step 3 for one index: it is below `NGEN`, or `BAD_CONTEXT` (R61). -/
def checkIndex (i : CtxIx) (s : State) : Option Status :=
  if i.toNat < s.params.ngen then none else some .badContext

/-- R35 step 4: the context is seeded, or `NOT_SEEDED` (R62). -/
def checkSeeded (i : CtxIx) (s : State) : Option Status :=
  if s.getV i then none else some .notSeeded

/-- The checks of a command that only writes `gd` (`SEED64`, `SEEDB`): `V[gd]` is not tested (R41, R42). -/
def checkTarget (gd : CtxIx) (s : State) : Option Status :=
  checkIndex gd s

/-- The checks of a command that reads `gd` (`STEP`, `NEXT32`, `NEXT64`, `SKIP`, `RDSTATE`). -/
def checkContext (gd : CtxIx) (s : State) : Option Status :=
  (checkIndex gd s).or (checkSeeded gd s)

/-- The checks of a two-context command (`NEWSTREAM`, `CLONE`): both indices, then the source's valid bit; `V[gd]` is not
tested (R57, R58). -/
def checkPair (gd gs : CtxIx) (s : State) : Option Status :=
  (checkIndex gd s).or ((checkIndex gs s).or (checkSeeded gs s))

/-- `SEEDB` exists only with `HAS_SEEDB`; without it the command is `ILLEGAL_CMD` (R42). The decoder refuses the word
already; the meaning checks too, so that it is right in every state (log 16). -/
def checkSeedb (gd : CtxIx) (s : State) : Option Status :=
  if s.params.hasSeedb then checkTarget gd s else some .illegalCmd

end Sys2Proof.Machine
end

