-- ==== Sys2Proof/Machine/Operands.lean ====
section
/-! DEFINITION. The constants of the algorithm (00_scope.md R4), the operand forms (30_encoding.md R38) and the pure
functions on them: the zero-replacing seed, byte lanes and packing (40_seeding.md R40, R43; 20_memory.md R21), the signed
step count (00_scope.md section 6; 42_skip.md R52). -/

namespace Sys2Proof.Machine

/-- The hardwired multiplier, `2^60 + 3` (R4). -/
def MULT : Word := 0x1000000000000003

/-- The hardwired inverse of `MULT` (R4). -/
def MULT_INV : Word := 0x1AAAAAAAAAAAAAAB

/-- R4's checked fact: the two constants are inverse modulo 2^64. -/
theorem mult_mul_multInv : MULT * MULT_INV = 1 := by decide

/-- `seed(v)` (R40): zero is replaced by 1. -/
def seed (v : Word) : Word :=
  if v = 0 then 1 else v

/-- `byte[i] = opd[8*i+7 : 8*i]` (R21, R38). -/
def byteLane (opd : Word) (i : Nat) : Byte :=
  opd.extractLsb' (8 * i) 8

/-- The eight byte lanes of an operand, `byte[0]` first (R38). -/
def byteLanes (opd : Word) : Vector Byte 8 :=
  Vector.ofFn fun (i : Fin 8) => byteLane opd i.val

/-- `pack8` (R43): the XOR of the eight bytes, byte `i` shifted left by `8*i`. -/
def pack8 (byte : Vector Byte 8) : Word :=
  (byte[0].setWidth 64 <<< 0) ^^^ (byte[1].setWidth 64 <<< 8) ^^^
  (byte[2].setWidth 64 <<< 16) ^^^ (byte[3].setWidth 64 <<< 24) ^^^
  (byte[4].setWidth 64 <<< 32) ^^^ (byte[5].setWidth 64 <<< 40) ^^^
  (byte[6].setWidth 64 <<< 48) ^^^ (byte[7].setWidth 64 <<< 56)

/-- `sval(n)`, the two's-complement value of a step count (00_scope.md section 6). -/
def sval (n : Word) : Int :=
  if n.msb then (n.toNat : Int) - 2 ^ 64 else n.toNat

/-- `pow(a, k)`: `a` multiplied by itself `k` times modulo 2^64, `pow(a, 0) = 1` (00_scope.md section 6). -/
def powMul (a : Word) : Nat → Word
  | 0 => 1
  | k + 1 => a * powMul a k

/-- `netmul(n)` (R52), the normative net multiplier of a skip: a power of `MULT` for a count of 0 or more, of `MULT_INV`
for a negative one. -/
def netmul (n : Word) : Word :=
  if n.msb then powMul MULT_INV (2 ^ 64 - n.toNat) else powMul MULT n.toNat

end Sys2Proof.Machine
end

