-- ==== Sys2Proof/Machine/Output.lean ====
section
/-! DEFINITION. The state update and the output permutation (41_step_output.md R45, R46) and the commands `STEP`,
`NEXT32`, `NEXT64` (R47, R48, R49). -/

namespace Sys2Proof.Machine

/-- `update(s) = (s * MULT) mod 2^64` (R45), the constant written first (multiplication commutes, R50; log 18) so that the kernel
never unfolds a product by the constant's value. -/
def update (x : Word) : Word :=
  MULT * x

/-- `permute` (R46): logical right shifts only, the second by 22 plus the top three bits of the unmixed state. -/
def permute (x : Word) : Output :=
  let r := (x >>> 61).toNat
  let y := (x ^^^ (x >>> 22)) >>> (22 + r)
  y.setWidth 32

/-- Two 32-bit outputs as one 64-bit value, the first in the high half (20_memory.md R22). -/
def joinHalves (hi lo : Output) : Word :=
  hi ++ lo

/-- The 64-bit output drawn from state `x` (R49): the outputs of its next two states. -/
def output64 (x : Word) : Word :=
  joinHalves (permute (update x)) (permute (update (update x)))

/-- `STEP gd` (R47). -/
def execStep (gd : CtxIx) (s : State) : Host.Outcome State Fault Refusal :=
  runCommand (checkContext gd s) (fun s => (s.setG gd (update (s.getG gd)), 0)) s

/-- `NEXT32 gd` (R48): the output is that of the updated state, zero-extended. -/
def execNext32 (gd : CtxIx) (s : State) : Host.Outcome State Fault Refusal :=
  runCommand (checkContext gd s)
    (fun s =>
      let s1 := update (s.getG gd)
      (s.setG gd s1, (permute s1).setWidth 64)) s

/-- `NEXT64 gd` (R49): two updates, one write, the first output high. -/
def execNext64 (gd : CtxIx) (s : State) : Host.Outcome State Fault Refusal :=
  runCommand (checkContext gd s)
    (fun s => (s.setG gd (update (update (s.getG gd))), output64 (s.getG gd))) s

end Sys2Proof.Machine
end

