-- ==== Sys2Proof/Machine/Seeding.lean ====
section
/-! DEFINITION. The seeding commands `SEED64` and `SEEDB` (40_seeding.md R41, R42) and the byte-serial seeding sequencer
(R44), which carries out `SEEDB` (DESIGN CHOICE, log 5). -/

namespace Sys2Proof.Machine

/-- R44: the sequencer's registers before its loop. -/
def seedSeqInit : SeedSeq := { sacc := 0, sidx := 0 }

/-- R44: one iteration, which takes in byte `SIDX`. -/
def seedSeqIter (opd : Word) (r : SeedSeq) : SeedSeq :=
  { sacc := r.sacc ^^^ ((byteLane opd r.sidx.toNat).setWidth 64 <<< (8 * r.sidx.toNat))
    sidx := r.sidx + 1 }

/-- R44: `while SIDX != 8`, for at most the given number of iterations. -/
def seedSeqLoop (opd : Word) : Nat → SeedSeq → SeedSeq
  | 0, r => r
  | k + 1, r => if r.sidx = 8 then r else seedSeqLoop opd k (seedSeqIter opd r)

/-- R44: after the loop, `if SACC = 0: SACC <- 1`. -/
def seedSeqFinish (r : SeedSeq) : SeedSeq :=
  if r.sacc = 0 then { r with sacc := 1 } else r

/-- R44: the whole sequencer on one operand; the loop runs exactly 8 times (log 17). -/
def seedSeqRun (opd : Word) : SeedSeq :=
  seedSeqFinish (seedSeqLoop opd 8 seedSeqInit)

/-- `SEED64 gd, imm64` (R41). -/
def execSeed64 (gd : CtxIx) (imm : Word) (s : State) : Host.Outcome State Fault Refusal :=
  runCommand (checkTarget gd s) (fun s => ((s.setG gd (seed imm)).setV gd, 0)) s

/-- `SEEDB gd, [b0, ..., b7]` (R42), by the sequencer of R44: `G[gd]` and `V[gd]` are written once, at the end. -/
def execSeedb (gd : CtxIx) (opd : Word) (s : State) : Host.Outcome State Fault Refusal :=
  runCommand (checkSeedb gd s)
    (fun s => (((s.setSeedSeq (seedSeqRun opd)).setG gd (seedSeqRun opd).sacc).setV gd, 0)) s

end Sys2Proof.Machine
end

