-- ==== Sys2Proof/Machine/Skip.lean ====
section
/-! DEFINITION. `SKIP` (42_skip.md R53) and its modular-exponentiation sequencer (R54), which carries it out: the engine's
right-to-left square and multiply on `ACC`, `BASE`, `CNT` (DESIGN CHOICE, log 5). The normative net multiplier is
`netmul` (R52, Machine/Operands.lean). -/

namespace Sys2Proof.Machine

/-- R54: the sequencer's registers at loop entry. `(NOT n) + 1` is the magnitude of a negative count, unsigned. -/
def skipSeqInit (n : Word) : SkipSeq :=
  if n.msb then { acc := 1, base := MULT_INV, cnt := ~~~n + 1 }
  else { acc := 1, base := MULT, cnt := n }

/-- R54: one iteration of the loop. -/
def skipSeqIter (r : SkipSeq) : SkipSeq :=
  { acc := if r.cnt.getLsbD 0 then r.acc * r.base else r.acc
    base := r.base * r.base
    cnt := r.cnt >>> 1 }

/-- R54: `while CNT != 0`, for at most the given number of iterations. -/
def skipSeqLoop : Nat → SkipSeq → SkipSeq
  | 0, r => r
  | k + 1, r => if r.cnt = 0 then r else skipSeqLoop k (skipSeqIter r)

/-- R54: the whole sequencer on one step count; the loop runs at most 64 times (log 17). -/
def skipSeqRun (n : Word) : SkipSeq :=
  skipSeqLoop 64 (skipSeqInit n)

/-- `SKIP gd, n` (R53, R54): `G[gd]` is multiplied once, after the loop, by the sequencer's `ACC`. -/
def execSkip (gd : CtxIx) (n : Word) (s : State) : Host.Outcome State Fault Refusal :=
  runCommand (checkContext gd s)
    (fun s => ((s.setSkipSeq (skipSeqRun n)).setG gd (s.getG gd * (skipSeqRun n).acc), 0)) s

end Sys2Proof.Machine
end

