-- ==== Sys2Proof/Machine/Stream.lean ====
section
/-! DEFINITION. `NEWSTREAM`, `CLONE` and `RDSTATE` (43_stream_clone_read.md R57, R58, R59). -/

namespace Sys2Proof.Machine

/-- `NEWSTREAM gd, gs` (R57): the parent advances two steps, then the child is seeded with the parent's 64-bit output; with
`gd = gs` the child remains (R77). -/
def execNewstream (gd gs : CtxIx) (s : State) : Host.Outcome State Fault Refusal :=
  runCommand (checkPair gd gs s)
    (fun s =>
      let x := s.getG gs
      let parent := s.setG gs (update (update x))
      ((parent.setG gd (seed (output64 x))).setV gd, 0)) s

/-- `CLONE gd, gs` (R58): the copy does not pass through `seed`; the source does not advance. -/
def execClone (gd gs : CtxIx) (s : State) : Host.Outcome State Fault Refusal :=
  runCommand (checkPair gd gs s) (fun s => ((s.setG gd (s.getG gs)).setV gd, 0)) s

/-- `RDSTATE gd` (R59): the raw state, nothing written. -/
def execRdstate (gd : CtxIx) (s : State) : Host.Outcome State Fault Refusal :=
  runCommand (checkContext gd s) (fun s => (s, s.getG gd)) s

end Sys2Proof.Machine
end

