-- ==== Sys2Proof/Machine/Dispatch.lean ====
section
/-! DEFINITION. The meaning of each command: one arm per constructor of `Instr` (30_encoding.md R33, R35 step 5). -/

namespace Sys2Proof.Machine

/-- The meaning of a decoded command. -/
def exec (i : Instr) (s : State) : Host.Outcome State Fault Refusal :=
  match i with
  | .seed64 gd imm => Sys2Proof.Machine.execSeed64 gd imm s
  | .seedb gd opd => Sys2Proof.Machine.execSeedb gd opd s
  | .step gd => Sys2Proof.Machine.execStep gd s
  | .next32 gd => Sys2Proof.Machine.execNext32 gd s
  | .next64 gd => Sys2Proof.Machine.execNext64 gd s
  | .skip gd n => Sys2Proof.Machine.execSkip gd n s
  | .newstream gd gs => Sys2Proof.Machine.execNewstream gd gs s
  | .clone gd gs => Sys2Proof.Machine.execClone gd gs s
  | .rdstate gd => Sys2Proof.Machine.execRdstate gd s

end Sys2Proof.Machine
end

