-- ==== Sys2Proof/Machine/Command.lean ====
section
/-! DEFINITION. Handling one 80-bit command word (30_encoding.md R35), one event of the outside (70_reset_and_hazards.md
R70), and a list of commands in issue order (20_memory.md R26). -/

namespace Sys2Proof.Machine

/-- R35, the function `exec` of 10_state.md R19 on a command word: an illegal word raises `ILLEGAL_CMD` (R60), a legal one
runs its command. -/
def execWord (w : CmdWord) (s : State) : Host.Outcome State Fault Refusal :=
  match decode s.params w with
  | .error _ => raiseError .illegalCmd s
  | .ok i => exec i s

/-- One event of the outside. A reset that arrives during a command ends it with no response and leaves the reset state
(R70, 93_implementation_defined.md U6), so the command in progress plays no part. -/
def execEvent (e : HostEvent) (s : State) : Host.Outcome State Fault Refusal :=
  match e with
  | .command w => execWord w s
  | .reset _ => .next s.applyReset

/-- The commands of a list, each wholly before the next begins, stopping where one stops (R26). -/
def execAll : List Instr → State → Host.Outcome State Fault Refusal
  | [], s => .next s
  | i :: is, s =>
    match exec i s with
    | .next s' => execAll is s'
    | .fault r => .fault r
    | .refused r => .refused r

/-- The same for command words. -/
def execWords : List CmdWord → State → Host.Outcome State Fault Refusal
  | [], s => .next s
  | w :: ws, s =>
    match execWord w s with
    | .next s' => execWords ws s'
    | .fault r => .fault r
    | .refused r => .refused r

/-- The host issues a command word to be taken next. -/
def State.issueFirst (s : State) (w : CmdWord) : State :=
  { s with input := .command w :: s.input }

end Sys2Proof.Machine
end

