-- ==== Sys2Proof/Machine/Step.lean ====
section
/-! DEFINITION. One step of the machine: the engine takes the oldest event the outside has issued and handles it wholly
(20_memory.md R25, R26); with none issued it is idle (60_exceptions.md R69; log 7). -/

namespace Sys2Proof.Machine

/-- One step. -/
def step (s : State) : Host.Outcome State Fault Refusal :=
  match s.takeEvent with
  | none => .next s
  | some (e, s') => execEvent e s'

/-- `s` with the opcode-table word `w` issued as the next command: the host issues it (log 10). -/
def State.withFetchWord (s : State) (nbits w : Nat) : State :=
  s.issueFirst (tableWord nbits w)

end Sys2Proof.Machine
end

