-- ==== Sys2Proof/Machine/HostSide.lean ====
section
/-! DEFINITION. The host adapter the spec gives a meaning to: the pseudo-command `FILL` (30_encoding.md R37) and the byte
order of its bytes (20_memory.md R23). It is host software; the engine returns integers. -/

namespace Sys2Proof.Machine

/-- The commands `FILL gd, L` stands for; none when `L` is not a multiple of 4, which an assembler refuses (R37). -/
def fillCommands (gd : CtxIx) (len : Nat) : Option (List Instr) :=
  if len % 4 = 0 then some (List.replicate (len / 4) (.next32 gd)) else none

/-- The four bytes of a 32-bit output, little-endian (R23). -/
def outputBytes (o : Output) : List Byte :=
  [o.extractLsb' 0 8, o.extractLsb' 8 8, o.extractLsb' 16 8, o.extractLsb' 24 8]

/-- The bytes of a fill: the low 32 bits of each response's data, in the order produced (R23, R37). -/
def fillBytes (rs : List RspWord) : List Byte :=
  rs.flatMap fun r => outputBytes ((rspData r).setWidth 32)

end Sys2Proof.Machine
end

