-- ==== Sys2Proof/Machine/Asm.lean ====
section
/-! DEFINITION. The assembler (30_encoding.md R36, R37), on text as a list of characters. Points of spelling the rule leaves
open are in log 15. -/

namespace Sys2Proof.Machine

/-- A token of a line. -/
inductive Token where
  | word (cs : List Char)
  | comma
  | lbracket
  | rbracket
deriving DecidableEq, Repr

/-- A line's command: one of the nine, or the pseudo-command `FILL gd, L` (R37). -/
inductive Source where
  | command (i : Instr)
  | fill (gd : CtxIx) (len : Nat)
deriving DecidableEq, Repr

/-- R36: a comment runs from `;` to the end of the line. -/
def stripComment (cs : List Char) : List Char :=
  cs.takeWhile fun c => c != ';'

/-- Put a finished word, held in reverse, before the tokens after it. -/
def flushWord (rev : List Char) (ts : List Token) : List Token :=
  match rev with
  | [] => ts
  | _ :: _ => .word rev.reverse :: ts

/-- The tokens of a line; `rev` is the word being read, in reverse. Blanks separate words and are otherwise ignored. -/
def tokenize (rev : List Char) : List Char → List Token
  | [] => flushWord rev []
  | c :: cs =>
    if c = ' ' ∨ c = '\t' ∨ c = '\r' then flushWord rev (tokenize [] cs)
    else if c = ',' then flushWord rev (.comma :: tokenize [] cs)
    else if c = '[' then flushWord rev (.lbracket :: tokenize [] cs)
    else if c = ']' then flushWord rev (.rbracket :: tokenize [] cs)
    else tokenize (c :: rev) cs

/-- The value of a decimal digit. -/
def decDigit (c : Char) : Option Nat :=
  if '0'.toNat ≤ c.toNat ∧ c.toNat ≤ '9'.toNat then some (c.toNat - '0'.toNat) else none

/-- The value of a hexadecimal digit, either case. -/
def hexDigit (c : Char) : Option Nat :=
  if 'a'.toNat ≤ c.toNat ∧ c.toNat ≤ 'f'.toNat then some (c.toNat - 'a'.toNat + 10)
  else if 'A'.toNat ≤ c.toNat ∧ c.toNat ≤ 'F'.toNat then some (c.toNat - 'A'.toNat + 10)
  else decDigit c

/-- Digits of a base, most significant first, after the digits already read. -/
def readDigits (digit : Char → Option Nat) (base : Nat) (done : Nat) : List Char → Option Nat
  | [] => some done
  | c :: cs =>
    match digit c with
    | none => none
    | some d => readDigits digit base (done * base + d) cs

/-- R36: an immediate is decimal, or hexadecimal with `0x`. -/
def readNumber : List Char → Option Nat
  | '0' :: 'x' :: c :: cs => readDigits hexDigit 16 0 (c :: cs)
  | c :: cs => readDigits decDigit 10 0 (c :: cs)
  | [] => none

/-- A 64-bit immediate (R36). -/
def readWord (cs : List Char) : Option Word :=
  match readNumber cs with
  | none => none
  | some n => if n < 2 ^ 64 then some (BitVec.ofNat 64 n) else none

/-- A byte value of a byte seed (R36). -/
def readByte (cs : List Char) : Option Byte :=
  match readNumber cs with
  | none => none
  | some n => if n < 2 ^ 8 then some (BitVec.ofNat 8 n) else none

/-- R36: the step count of `SKIP`, a signed decimal `k` from `-2^63` to `2^63 - 1`, encoded as `k mod 2^64`, or a 64-bit
hexadecimal pattern. R36 shows no sign but `-`, and a leading `+` is refused; a `-` stands next to decimal digits alone
(DESIGN CHOICE, log 15). -/
def readCount : List Char → Option Word
  | '0' :: 'x' :: cs => readWord ('0' :: 'x' :: cs)
  | '-' :: c :: cs =>
    match readDigits decDigit 10 0 (c :: cs) with
    | none => none
    | some k => if k ≤ 2 ^ 63 then some (BitVec.ofInt 64 (-k)) else none
  | cs =>
    match readNumber cs with
    | none => none
    | some k => if k < 2 ^ 63 then some (BitVec.ofNat 64 k) else none

/-- R36: a context is `g0` to `g15`. -/
def readContext : List Char → Option CtxIx
  | ['g', d] =>
    match decDigit d with
    | none => none
    | some n => some (BitVec.ofNat 4 n)
  | ['g', '1', d] =>
    match decDigit d with
    | none => none
    | some n => if n ≤ 5 then some (BitVec.ofNat 4 (10 + n)) else none
  | _ => none

/-- The operand field of eight bytes: `opd = b7‖b6‖b5‖b4‖b3‖b2‖b1‖b0` (R36). -/
def bytesOperand (b0 b1 b2 b3 b4 b5 b6 b7 : Byte) : Word :=
  b7 ++ b6 ++ b5 ++ b4 ++ b3 ++ b2 ++ b1 ++ b0

/-- Operands `gd` (format U). -/
def operandsU (f : CtxIx → Instr) : List Token → Option Source
  | [.word g] => do return .command (f (← readContext g))
  | _ => none

/-- Operands `gd, gs` (format R); the destination is written first. -/
def operandsR (f : CtxIx → CtxIx → Instr) : List Token → Option Source
  | [.word g, .comma, .word h] => do return .command (f (← readContext g) (← readContext h))
  | _ => none

/-- Operands `gd, x` (format I), `x` read by `readX`. -/
def operandsI (readX : List Char → Option Word) (f : CtxIx → Word → Instr) : List Token → Option Source
  | [.word g, .comma, .word x] => do return .command (f (← readContext g) (← readX x))
  | _ => none

/-- Operands `gd, [b0, b1, b2, b3, b4, b5, b6, b7]` (R36: exactly eight byte values, `byte[0]` first). -/
def operandsBytes : List Token → Option Source
  | [.word g, .comma, .lbracket, .word b0, .comma, .word b1, .comma, .word b2, .comma, .word b3, .comma, .word b4, .comma,
      .word b5, .comma, .word b6, .comma, .word b7, .rbracket] => do
    return .command (.seedb (← readContext g)
      (bytesOperand (← readByte b0) (← readByte b1) (← readByte b2) (← readByte b3)
        (← readByte b4) (← readByte b5) (← readByte b6) (← readByte b7)))
  | _ => none

/-- Operands `gd, L` of `FILL` (R37). -/
def operandsFill : List Token → Option Source
  | [.word g, .comma, .word x] => do return .fill (← readContext g) (← readNumber x)
  | _ => none

/-- A mnemonic in capitals, then its operands (R36). -/
def readCommand (m : List Char) (ops : List Token) : Option Source :=
  if m = "SEED64".toList then operandsI readWord .seed64 ops
  else if m = "SEEDB".toList then operandsBytes ops
  else if m = "STEP".toList then operandsU .step ops
  else if m = "NEXT32".toList then operandsU .next32 ops
  else if m = "NEXT64".toList then operandsU .next64 ops
  else if m = "SKIP".toList then operandsI readCount .skip ops
  else if m = "NEWSTREAM".toList then operandsR .newstream ops
  else if m = "CLONE".toList then operandsR .clone ops
  else if m = "RDSTATE".toList then operandsU .rdstate ops
  else if m = "FILL".toList then operandsFill ops
  else none

/-- The commands a line's command stands for. -/
def expandSource : Source → Option (List Instr)
  | .command i => some [i]
  | .fill gd len => fillCommands gd len

/-- One line: no command on a blank or comment line, otherwise the commands it stands for; none where the assembler
refuses the line. -/
def assembleLine (cs : List Char) : Option (List Instr) :=
  match tokenize [] (stripComment cs) with
  | [] => some []
  | .word m :: ops => (readCommand m ops).bind expandSource
  | _ => none

/-- The lines of a text; `rev` is the line being read, in reverse. -/
def splitLines (rev : List Char) : List Char → List (List Char)
  | [] => [rev.reverse]
  | c :: cs => if c = '\n' then rev.reverse :: splitLines [] cs else splitLines (c :: rev) cs

/-- The commands of the lines in order; none where one of them is refused. -/
def assembleLines : List (List Char) → Option (List Instr)
  | [] => some []
  | l :: ls => do return (← assembleLine l) ++ (← assembleLines ls)

/-- A program text to its command words in order (R36). -/
def assemble (text : List Char) : Option (List CmdWord) :=
  (assembleLines (splitLines [] text)).map (List.map encode)

/-- A context as R36 writes it. -/
def contextText (g : CtxIx) : List Char :=
  'g' :: Nat.toDigits 10 g.toNat

/-- A step count as R36 writes it, a signed decimal. -/
def countText (n : Word) : List Char :=
  if n.msb then '-' :: Nat.toDigits 10 (2 ^ 64 - n.toNat) else Nat.toDigits 10 n.toNat

/-- The byte values of a byte seed, decimal, `byte[0]` first, separated by commas (R36). -/
def bytesText : List Byte → List Char
  | [] => []
  | [b] => Nat.toDigits 10 b.toNat
  | b :: b' :: bs => Nat.toDigits 10 b.toNat ++ ',' :: bytesText (b' :: bs)

/-- A command's line as R36 writes it: mnemonic, operands separated by commas, destination first. -/
def commandText : Instr → List Char
  | .seed64 gd imm => "SEED64 ".toList ++ contextText gd ++ ", ".toList ++ Nat.toDigits 10 imm.toNat
  | .seedb gd opd => "SEEDB ".toList ++ contextText gd ++ ", [".toList ++ bytesText (byteLanes opd).toList ++ [']']
  | .step gd => "STEP ".toList ++ contextText gd
  | .next32 gd => "NEXT32 ".toList ++ contextText gd
  | .next64 gd => "NEXT64 ".toList ++ contextText gd
  | .skip gd n => "SKIP ".toList ++ contextText gd ++ ", ".toList ++ countText n
  | .newstream gd gs => "NEWSTREAM ".toList ++ contextText gd ++ ", ".toList ++ contextText gs
  | .clone gd gs => "CLONE ".toList ++ contextText gd ++ ", ".toList ++ contextText gs
  | .rdstate gd => "RDSTATE ".toList ++ contextText gd

end Sys2Proof.Machine
end

