-- ==== Sys2Proof/Machine/Cost.lean ====
section
/-! DEFINITION. The counts of operations of 70_reset_and_hazards.md R76, read off the sequencers of 42_skip.md R54 and
40_seeding.md R44. They are counts, not cycles; no rule reads them and `step` does not (log 14). -/

namespace Sys2Proof.Machine

/-- Counts for one command that passes its checks (R76): 64-bit multiplications, evaluations of `permute`, and sequencer
iterations. -/
structure OpCount where
  mults      : Nat
  permutes   : Nat
  iterations : Nat
deriving DecidableEq, Repr

/-- How many iterations the loop of R54 makes from given registers. -/
def skipSeqIterations : Nat → SkipSeq → Nat
  | 0, _ => 0
  | k + 1, r => if r.cnt = 0 then 0 else skipSeqIterations k (skipSeqIter r) + 1

/-- How many of them multiply into `ACC`. -/
def skipSeqAccMults : Nat → SkipSeq → Nat
  | 0, _ => 0
  | k + 1, r =>
    if r.cnt = 0 then 0
    else skipSeqAccMults k (skipSeqIter r) + (if r.cnt.getLsbD 0 then 1 else 0)

/-- How many iterations the loop of R44 makes from given registers. -/
def seedSeqIterations (opd : Word) : Nat → SeedSeq → Nat
  | 0, _ => 0
  | k + 1, r => if r.sidx = 8 then 0 else seedSeqIterations opd k (seedSeqIter opd r) + 1

/-- The counts of R76, per command. `SKIP` squares `BASE` once an iteration and multiplies the state once at the end. -/
def opCount : Instr → OpCount
  | .seed64 _ _ => { mults := 0, permutes := 0, iterations := 0 }
  | .seedb _ opd => { mults := 0, permutes := 0, iterations := seedSeqIterations opd 8 seedSeqInit }
  | .step _ => { mults := 1, permutes := 0, iterations := 0 }
  | .next32 _ => { mults := 1, permutes := 1, iterations := 0 }
  | .next64 _ => { mults := 2, permutes := 2, iterations := 0 }
  | .skip _ n =>
    { mults := skipSeqIterations 64 (skipSeqInit n) + skipSeqAccMults 64 (skipSeqInit n) + 1
      permutes := 0
      iterations := skipSeqIterations 64 (skipSeqInit n) }
  | .newstream _ _ => { mults := 2, permutes := 2, iterations := 0 }
  | .clone _ _ => { mults := 0, permutes := 0, iterations := 0 }
  | .rdstate _ => { mults := 0, permutes := 0, iterations := 0 }

end Sys2Proof.Machine
end

