-- ==== Sys2Proof/Safety.lean ====
section
/-! DEFINITION. What counts as a sound state and a safe run of the engine: the non-zero invariant (10_state.md R12), contexts
that do not exist stay unseeded (R10, R61), responses are those of 30_encoding.md R31, no error was answered
(60_exceptions.md R63), and when two states look alike to the host (10_state.md R15, R19). -/

namespace Sys2Proof.Machine

/-- R12: every seeded context holds a non-zero state. -/
abbrev State.NonZeroSeeded (s : State) : Prop :=
  ∀ i : CtxIx, s.getV i = true → s.getG i ≠ 0

/-- No slot past `NGEN` is seeded: such a context does not exist (log 2). -/
abbrev State.OnlyContextsSeeded (s : State) : Prop :=
  ∀ i : CtxIx, s.params.ngen ≤ i.toNat → s.getV i = false

/-- R31 of one response: a status of 0 to 3, and data 0 unless the status is `OK`. -/
abbrev LegalResponse (r : RspWord) : Prop :=
  rspStatus r ≤ 3 ∧ (rspStatus r ≠ 0 → rspData r = 0)

/-- R31 of every response emitted so far. -/
abbrev State.LegalResponses (s : State) : Prop :=
  ∀ r ∈ s.responses, LegalResponse r

/-- The invariant of the machine: legal parameters and the three properties above. -/
structure State.Inv (s : State) : Prop where
  legal     : s.params.Legal
  nonZero   : s.NonZeroSeeded
  contexts  : s.OnlyContextsSeeded
  responses : s.LegalResponses

/-- A safe run so far: every response was `OK` (R63: a host that wants "no error occurred in this run" must look at every
response). -/
abbrev State.AllOk (s : State) : Prop :=
  ∀ r ∈ s.responses, rspStatus r = 0

/-- Two states the host cannot tell apart: the same parameters and valid bits, the same state in every seeded context, the
same events to come and the same responses so far. The content of unseeded contexts and of the hidden registers may differ
(R15, R19; 93_implementation_defined.md U1, U2). -/
structure State.LooksLike (s t : State) : Prop where
  params    : s.params = t.params
  v         : s.v = t.v
  g         : ∀ i : CtxIx, s.getV i = true → s.getG i = t.getG i
  input     : s.input = t.input
  responses : s.responses = t.responses

/-- `s` and `t` agree on everything but the contexts' registers and valid bits, the hidden registers and the responses:
what no command changes at all (R3, R13). -/
structure State.SamePort (s t : State) : Prop where
  params : s.params = t.params
  input  : s.input = t.input
  fresh  : s.fresh = t.fresh

end Sys2Proof.Machine
end

