-- ==== Sys2Proof/Certificates/Slice0/Obligations.lean ====
section
/-! DEFINITION. The statements for the provers, from the numbered rules of spec/. In a response word `st ++ d`, `st` is the
4-bit status and `d` the 64-bit data (30_encoding.md R31). Statements over all states also hold in states no run reaches. -/

open Sys2Proof Sys2Proof.Machine

/-! ### Encoding -/

/-- 95_test_vectors.md section 2 and 30_encoding.md R33: words the spec writes out, and the commands they are. -/
def Obligations.SpecWordsDecode : Prop :=
  decode Params.default 0x0000_0000000000000000 = .error .reservedOp ∧
  decode Params.default 0x1300_8000000000000000 = .ok (.seed64 3 0x8000000000000000) ∧
  decode Params.default 0x2100_0807060504030201 = .ok (.seedb 1 0x0807060504030201) ∧
  decode Params.default 0x3200_0000000000000000 = .ok (.step 2) ∧
  decode Params.default 0x4100_0000000000000000 = .ok (.next32 1) ∧
  decode Params.default 0x5000_0000000000000000 = .ok (.next64 0) ∧
  decode Params.default 0x6000_FFFFFFFFFFFFFFFD = .ok (.skip 0 0xFFFFFFFFFFFFFFFD) ∧
  decode Params.default 0x7900_0000000000000000 = .ok (.newstream 9 0) ∧
  decode Params.default 0x8150_0000000000000000 = .ok (.clone 1 5) ∧
  decode Params.default 0x9100_0000000000000000 = .ok (.rdstate 1)

/-- 30_encoding.md R33, R36: every command an engine has is what the decoder reads from its word, at every operand. -/
def Obligations.DecodeOfEncode : Prop :=
  ∀ (p : Params) (i : Instr), i.encodable p = true → decode p (encode i) = .ok i

/-- 30_encoding.md R34 ("keeps decode injective (one legal word per command)"): a word the decoder accepts is the word of the
command it reads, and that command exists on the engine. -/
def Obligations.EncodeOfDecode : Prop :=
  ∀ (p : Params) (w : CmdWord) (i : Instr),
    decode p w = .ok i → encode i = w ∧ i.encodable p = true

/-- 30_encoding.md R33: the decoder reads a command from a word exactly when the word matches that command's row of the
match and mask table (`SEEDB`'s only with `HAS_SEEDB`), and no word matches two rows. -/
def Obligations.MatchMaskSelectsCommand : Prop :=
  ∀ (p : Params) (w : CmdWord),
    (∀ i, decode p w = .ok i →
      ∃ row ∈ opTable, row.mnemonic = i.mnemonic ∧ w &&& row.mask = row.bits) ∧
    (∀ row ∈ opTable, w &&& row.mask = row.bits → (row.mnemonic = "SEEDB" → p.hasSeedb = true) →
      ∃ i, decode p w = .ok i ∧ i.mnemonic = row.mnemonic) ∧
    (∀ row ∈ opTable, ∀ row' ∈ opTable,
      w &&& row.mask = row.bits → w &&& row'.mask = row'.bits → row = row')

/-- 30_encoding.md R34, R35: the decoder refuses exactly the illegal words. -/
def Obligations.DecoderRefusesExactlyIllegal : Prop :=
  ∀ (p : Params) (w : CmdWord), (∃ e, decode p w = .error e) ↔ Illegal p w

/-- 30_encoding.md R36: the assembler reads back every command, at every operand, from the line R36 writes for it. -/
def Obligations.AssemblerReadsEveryCommand : Prop :=
  ∀ i : Instr, assembleLine (commandText i) = some [i]

/-! ### A step, the checks and the responses -/

/-- 30_encoding.md R35, 20_memory.md R26: a step whose next event is a word that decodes runs that command on the state less
the event. With nothing issued the engine is idle (log 7, the model's inference). -/
def Obligations.StepRunsDecodedCommand : Prop :=
  (∀ (s : State) (w : CmdWord) (rest : List HostEvent) (i : Instr),
    s.input = .command w :: rest → decode s.params w = .ok i →
      step s = exec i { s with input := rest }) ∧
  (∀ s : State, s.input = [] → step s = .next s)

/-- 30_encoding.md R34: an illegal word changes no state and is answered `ILLEGAL_CMD` with data 0; the words of all zeros and
of all ones are illegal. -/
def Obligations.IllegalWordAnsweredIllegalCmd : Prop :=
  (∀ (s : State) (w : CmdWord) (rest : List HostEvent),
    s.input = .command w :: rest → Illegal s.params w →
      step s = .next { s with input := rest, responses := s.responses ++ [0x1_0000000000000000#68] }) ∧
  (∀ p : Params, Illegal p 0x0000_0000000000000000 ∧ Illegal p 0xFFFF_FFFFFFFFFFFFFFFF)

/-- 30_encoding.md R35, 60_exceptions.md R65: the checks of a command word, in order: legality, then index range, then the
valid bit of the context read; a word that passes them runs its command, which answers `OK`. -/
def Obligations.ChecksRunInOrder : Prop :=
  ∀ (s : State) (w : CmdWord) (rest : List HostEvent), s.input = .command w :: rest →
    let s' : State := { s with input := rest }
    let op : BitVec 4 := w.extractLsb' 76 4
    let gd : CtxIx := w.extractLsb' 72 4
    let gs : CtxIx := w.extractLsb' 68 4
    let two : Prop := op = 0x7 ∨ op = 0x8
    let src : CtxIx := if op = 0x7 ∨ op = 0x8 then gs else gd
    let outside : Prop := s.params.ngen ≤ gd.toNat ∨ (two ∧ s.params.ngen ≤ gs.toNat)
    let unseeded : Prop := op ≠ 0x1 ∧ op ≠ 0x2 ∧ s.getV src = false
    (Illegal s.params w → step s = .next { s' with responses := s.responses ++ [0x1#4 ++ 0#64] }) ∧
    (¬ Illegal s.params w → outside →
      step s = .next { s' with responses := s.responses ++ [0x2#4 ++ 0#64] }) ∧
    (¬ Illegal s.params w → ¬ outside → unseeded →
      step s = .next { s' with responses := s.responses ++ [0x3#4 ++ 0#64] }) ∧
    (¬ Illegal s.params w → ¬ outside → ¬ unseeded →
      ∃ (i : Instr) (t : State) (d : Word), decode s.params w = .ok i ∧ step s = exec i s' ∧ step s = .next t ∧
        t.responses = s.responses ++ [0x0#4 ++ d])

/-- 60_exceptions.md R61: a command the engine has that names a context at or past `NGEN` is answered `BAD_CONTEXT` with data
0 and changes nothing; with `NGEN = 16` no command names one. -/
def Obligations.BadContextAnswered : Prop :=
  (∀ (i : Instr) (s : State), i.encodable s.params = true → i.inRange s.params = false →
    exec i s = .next { s with responses := s.responses ++ [0x2#4 ++ 0#64] }) ∧
  (∀ (i : Instr) (p : Params), p.ngen = 16 → i.inRange p = true)

/-- 60_exceptions.md R62: a command the engine has, with its indices in range, that reads an unseeded context is answered
`NOT_SEEDED` with data 0 and changes nothing; `SEED64` and `SEEDB` read none. -/
def Obligations.NotSeededAnswered : Prop :=
  (∀ (i : Instr) (s : State) (g : CtxIx), i.wellFormed s.params = true → g ∈ i.reads → s.getV g = false →
    exec i s = .next { s with responses := s.responses ++ [0x3#4 ++ 0#64] }) ∧
  (∀ (gd : CtxIx) (x : Word), (Instr.seed64 gd x).reads = [] ∧ (Instr.seedb gd x).reads = [])

/-- 60_exceptions.md R63: a command answered with a status other than `OK` left every piece of state as it was, and its
response is the status, 1 to 3, with data 0. -/
def Obligations.ErrorsChangeNothing : Prop :=
  ∀ (s t : State) (w : CmdWord) (rest : List HostEvent) (r : RspWord),
    s.input = .command w :: rest → step s = .next t → t.responses = s.responses ++ [r] →
      rspStatus r ≠ 0 →
        t = { s with input := rest, responses := s.responses ++ [r] } ∧
        1 ≤ rspStatus r ∧ rspStatus r ≤ 3 ∧ rspData r = 0

/-- 30_encoding.md R31: a command is answered by exactly one response word, whose status is 0 to 3, whose data is 0 unless
the status is `OK`, and then is the command's result by R31's table. -/
def Obligations.OneResponsePerCommand : Prop :=
  ∀ (s : State) (w : CmdWord) (rest : List HostEvent), s.input = .command w :: rest →
    ∃ t r, step s = .next t ∧ t.responses = s.responses ++ [r] ∧
      rspStatus r ≤ 3 ∧ (rspStatus r ≠ 0 → rspData r = 0) ∧
      (rspStatus r = 0 → ∃ i, decode s.params w = .ok i ∧
        rspData r =
          match i with
          | .next32 gd => (permute (0x1000000000000003 * s.getG gd)).setWidth 64
          | .next64 gd =>
            permute (0x1000000000000003 * s.getG gd) ++
              permute (0x1000000000000003 * (0x1000000000000003 * s.getG gd))
          | .rdstate gd => s.getG gd
          | _ => 0)

/-- 30_encoding.md R35 ("exec is total"): in every state a step answers a next state, never a fault or a refusal. -/
def Obligations.StepNeverStops : Prop :=
  ∀ s : State, ∃ t, step s = .next t

/-- 20_memory.md R26: the engine takes the issued words from the head, each wholly before the next: running as many steps as
words are issued is executing them in order, and gives one response each. -/
def Obligations.CommandsRunInIssueOrder : Prop :=
  ∀ (ws : List CmdWord) (rest : List HostEvent) (s : State),
    s.input = ws.map HostEvent.command ++ rest →
      ∃ t, execWords ws s = .next t ∧
        core.run ws.length s = .next { t with input := rest } ∧
        t.responses.length = s.responses.length + ws.length

/-! ### Pure functions -/

/-- 40_seeding.md R40, 70_reset_and_hazards.md R74: `seed` replaces 0 by 1 and nothing else, never returns 0, is idempotent
and otherwise injective; so `SEED64` of 0 and of 1 answer and do the same. -/
def Obligations.SeedReplacesOnlyZero : Prop :=
  (∀ v : Word, seed v = if v = 0 then 1 else v) ∧
  (∀ v : Word, seed v ≠ 0 ∧ seed (seed v) = seed v) ∧
  (∀ v v' : Word, seed v = seed v' → v = v' ∨ (v.toNat ≤ 1 ∧ v'.toNat ≤ 1)) ∧
  (∀ (gd : CtxIx) (s : State), exec (.seed64 gd 0) s = exec (.seed64 gd 1) s)

/-- 40_seeding.md R43, 20_memory.md R21: `pack8` is the little-endian concatenation of its bytes, their OR and their sum at their
places, and of the lanes of an operand it is the operand. -/
def Obligations.PackIsLittleEndian : Prop :=
  (∀ b : Vector Byte 8,
    pack8 b = b[7] ++ b[6] ++ b[5] ++ b[4] ++ b[3] ++ b[2] ++ b[1] ++ b[0] ∧
    pack8 b =
      b[0].setWidth 64 ||| b[1].setWidth 64 <<< 8 ||| b[2].setWidth 64 <<< 16 ||| b[3].setWidth 64 <<< 24 |||
      b[4].setWidth 64 <<< 32 ||| b[5].setWidth 64 <<< 40 ||| b[6].setWidth 64 <<< 48 ||| b[7].setWidth 64 <<< 56 ∧
    (pack8 b).toNat =
      b[0].toNat + b[1].toNat * 2 ^ 8 + b[2].toNat * 2 ^ 16 + b[3].toNat * 2 ^ 24 +
      b[4].toNat * 2 ^ 32 + b[5].toNat * 2 ^ 40 + b[6].toNat * 2 ^ 48 + b[7].toNat * 2 ^ 56 ∧
    ∀ (i : Fin 8) (k : Nat), k < 8 → (pack8 b).getLsbD (8 * i.val + k) = b[i].getLsbD k) ∧
  (∀ opd : Word, pack8 (byteLanes opd) = opd)

/-- 41_step_output.md R45: the update multiplies by `2^60 + 3` modulo 2^64; it is a bijection undone by `MULT_INV`, keeps zero
alone at zero, keeps the number of trailing zero bits, and fixes `2^63`. -/
def Obligations.UpdateIsOddMultiplication : Prop :=
  (∀ x : Word, (update x).toNat = (2 ^ 60 + 3) * x.toNat % 2 ^ 64) ∧
  (∀ x : Word, update x = (x <<< 60) + x + (x <<< 1)) ∧
  (∀ x : Word, MULT_INV * update x = x ∧ update (MULT_INV * x) = x) ∧
  (∀ x : Word, update x = 0 ↔ x = 0) ∧
  (∀ (x : Word) (k : Nat), 2 ^ k ∣ (update x).toNat ↔ 2 ^ k ∣ x.toNat) ∧
  update 0x8000000000000000 = 0x8000000000000000

/-- 41_step_output.md R46: output bit `k` is bit `22 + r + k` of `x = s XOR (s >> 22)`, with `r` the top three bits of `s`. -/
def Obligations.PermuteSelectsBits : Prop :=
  ∀ (x : Word) (k : Nat), k < 32 →
    (permute x).getLsbD k =
      (x ^^^ (x >>> 22)).getLsbD (22 + x.toNat / 2 ^ 61 + k)

/-- 42_skip.md R55: the inverse law, the composition law and the 62-bit law of the net multiplier, and the two facts they
follow from. -/
def Obligations.NetMultiplierLaws : Prop :=
  (∀ a : Word, netmul a * netmul (-a) = 1) ∧
  (∀ a b : Word, netmul a * netmul b = netmul (a + b)) ∧
  (∀ a : Word, netmul a = powMul MULT (a.toNat % 2 ^ 62)) ∧
  MULT * MULT_INV = 1 ∧ powMul MULT (2 ^ 62) = 1 ∧ powMul MULT (2 ^ 61) = 0x8000000000000001

/-- 42_skip.md R54: the skip sequencer computes the net multiplier of R52: before every test of its loop
`ACC * BASE^CNT` is the net multiplier, it ends with `CNT = 0` and `ACC` the net multiplier, and it runs as many times as the
exponent has significant bits, at most 64; `SKIP` multiplies the context once by that `ACC`. That `ACC`, `BASE`, `CNT` keep the
sequencer's last values after the command is the model's choice (DESIGN CHOICE, log 5): R15 and U2 leave them unspecified. -/
def Obligations.SkipSequencerComputesNetmul : Prop :=
  ∀ n : Word,
    (skipSeqRun n).acc = netmul n ∧ (skipSeqRun n).cnt = 0 ∧
    (∀ k, let r := skipSeqLoop k (skipSeqInit n)
      r.acc * powMul r.base r.cnt.toNat = netmul n) ∧
    (skipSeqInit n).cnt.toNat = (sval n).natAbs ∧
    skipSeqIterations 64 (skipSeqInit n) ≤ 64 ∧
    (sval n).natAbs < 2 ^ skipSeqIterations 64 (skipSeqInit n) ∧
    (n ≠ 0 → 2 ^ (skipSeqIterations 64 (skipSeqInit n) - 1) ≤ (sval n).natAbs) ∧
    (∀ (gd : CtxIx) (s : State), gd.toNat < s.params.ngen → s.getV gd = true →
      exec (.skip gd n) s =
        .next { s.setG gd (s.getG gd * (skipSeqRun n).acc) with
          skipSeq := skipSeqRun n, responses := s.responses ++ [0x0#4 ++ 0#64] })

/-- 40_seeding.md R44: the seeding sequencer computes the seed of the packed bytes: before the iteration with `SIDX = k`,
`SACC` is the low `8*k` bits of the operand; it runs exactly 8 times. -/
def Obligations.SeedSequencerComputesSeed : Prop :=
  ∀ opd : Word,
    (seedSeqRun opd).sacc = seed (pack8 (byteLanes opd)) ∧
    (∀ k, k ≤ 8 → (seedSeqLoop opd k seedSeqInit).sacc.toNat = opd.toNat % 2 ^ (8 * k) ∧
      (seedSeqLoop opd k seedSeqInit).sidx.toNat = k) ∧
    seedSeqIterations opd 8 seedSeqInit = 8

/-- 70_reset_and_hazards.md R75: a state with `k` trailing zero bits returns to itself after `2^(62-k)` updates for `k` to 61,
after 2 for `k = 62`, after 1 for `k = 63`. -/
def Obligations.ShortOrbitsReturn : Prop :=
  (∀ (x : Word) (k : Nat), k ≤ 61 → 2 ^ k ∣ x.toNat → x * powMul MULT (2 ^ (62 - k)) = x) ∧
  (∀ x : Word, 2 ^ 62 ∣ x.toNat → update (update x) = x) ∧
  (∀ x : Word, 2 ^ 63 ∣ x.toNat → update x = x)

/-- 70_reset_and_hazards.md R76: the counts of operations of each command, read off the sequencers; a skip by a count whose
magnitude has `b` significant bits, `w` of them 1, multiplies `b + w + 1` times, at most 129. -/
def Obligations.OperationCounts : Prop :=
  (∀ (g h : CtxIx) (x : Word),
    (opCount (.seed64 g x)).mults = 0 ∧ (opCount (.clone g h)).mults = 0 ∧ (opCount (.rdstate g)).mults = 0 ∧
    (opCount (.seedb g x)).mults = 0 ∧ (opCount (.seedb g x)).iterations = 8 ∧
    opCount (.step g) = { mults := 1, permutes := 0, iterations := 0 } ∧
    opCount (.next32 g) = { mults := 1, permutes := 1, iterations := 0 } ∧
    opCount (.next64 g) = { mults := 2, permutes := 2, iterations := 0 } ∧
    opCount (.newstream g h) = { mults := 2, permutes := 2, iterations := 0 }) ∧
  (∀ (g : CtxIx) (n : Word),
    let w := ((List.range 64).filter fun j => (sval n).natAbs.testBit j).length
    let c := opCount (.skip g n)
    c.iterations = Nat.size (sval n).natAbs ∧ c.mults = c.iterations + w + 1 ∧ c.mults ≤ 129 ∧ c.iterations ≤ 64 ∧ (n = 0 → c.mults = 1))

/-! ### What each command does

Each statement's first clause says where the command completes: its checks pass, by hypotheses on the state and operands
alone, and `exec` answers the next state named, whole. -/

/-- 40_seeding.md R41. -/
def Obligations.Seed64SeedsContext : Prop :=
  (∀ (gd : CtxIx) (v : Word) (s : State), gd.toNat < s.params.ngen →
    exec (.seed64 gd v) s =
      .next { (s.setG gd (if v = 0 then 1 else v)).setV gd with
        responses := s.responses ++ [0x0#4 ++ 0#64] }) ∧
  (∀ (gd : CtxIx) (v : Word) (s : State), s.params.ngen ≤ gd.toNat →
    exec (.seed64 gd v) s = .next { s with responses := s.responses ++ [0x2#4 ++ 0#64] }) ∧
  (∀ (p : Params) (gd gs : CtxIx) (rsv : BitVec 4) (v : Word),
    (gs = 0 ∧ rsv = 0 → decode p (0x1#4 ++ gd ++ gs ++ rsv ++ v) = .ok (.seed64 gd v)) ∧
    (gs ≠ 0 ∨ rsv ≠ 0 → ∃ e, decode p (0x1#4 ++ gd ++ gs ++ rsv ++ v) = .error e))

/-- 40_seeding.md R42. What the sequencer's registers hold afterwards is left open here, as R15 leaves it. -/
def Obligations.SeedbSeedsContext : Prop :=
  (∀ (gd : CtxIx) (opd : Word) (s : State), s.params.hasSeedb = true → gd.toNat < s.params.ngen →
    ∃ q : SeedSeq, exec (.seedb gd opd) s =
      .next { (s.setG gd (seed (pack8 (byteLanes opd)))).setV gd with
        seedSeq := q, responses := s.responses ++ [0x0#4 ++ 0#64] }) ∧
  (∀ (gd : CtxIx) (opd : Word) (s : State), s.params.hasSeedb = true → s.params.ngen ≤ gd.toNat →
    exec (.seedb gd opd) s = .next { s with responses := s.responses ++ [0x2#4 ++ 0#64] }) ∧
  (∀ (gd : CtxIx) (opd : Word) (s : State), s.params.hasSeedb = false →
    exec (.seedb gd opd) s = .next { s with responses := s.responses ++ [0x1#4 ++ 0#64] }) ∧
  (∀ (p : Params) (gd gs : CtxIx) (rsv : BitVec 4) (opd : Word),
    (p.hasSeedb = true ∧ gs = 0 ∧ rsv = 0 →
      decode p (0x2#4 ++ gd ++ gs ++ rsv ++ opd) = .ok (.seedb gd opd)) ∧
    (p.hasSeedb = false ∨ gs ≠ 0 ∨ rsv ≠ 0 → ∃ e, decode p (0x2#4 ++ gd ++ gs ++ rsv ++ opd) = .error e))

/-- The words of a format U command with opcode `op`: the legal one is read as `i`, the others are illegal (R32, R47, R48,
R49, R59). -/
def Sys2Proof.formatUWords (op : BitVec 4) (i : CtxIx → Instr) : Prop :=
  ∀ (p : Params) (gd gs : CtxIx) (rsv : BitVec 4) (opd : Word),
    (gs = 0 ∧ rsv = 0 ∧ opd = 0 → decode p (op ++ gd ++ gs ++ rsv ++ opd) = .ok (i gd)) ∧
    (gs ≠ 0 ∨ rsv ≠ 0 ∨ opd ≠ 0 → ∃ e, decode p (op ++ gd ++ gs ++ rsv ++ opd) = .error e)

/-- The words of a format R command with opcode `op` (R32, R57, R58). -/
def Sys2Proof.formatRWords (op : BitVec 4) (i : CtxIx → CtxIx → Instr) : Prop :=
  ∀ (p : Params) (gd gs : CtxIx) (rsv : BitVec 4) (opd : Word),
    (rsv = 0 ∧ opd = 0 → decode p (op ++ gd ++ gs ++ rsv ++ opd) = .ok (i gd gs)) ∧
    (rsv ≠ 0 ∨ opd ≠ 0 → ∃ e, decode p (op ++ gd ++ gs ++ rsv ++ opd) = .error e)

/-- A command that reads the one context `gd`: out of range it answers `BAD_CONTEXT`, unseeded `NOT_SEEDED`, and in both cases
changes nothing (R47, R48, R49, R53, R59). -/
def Sys2Proof.contextErrors (i : Instr) (gd : CtxIx) (s : State) : Prop :=
  (s.params.ngen ≤ gd.toNat →
    exec i s = .next { s with responses := s.responses ++ [0x2#4 ++ 0#64] }) ∧
  (gd.toNat < s.params.ngen → s.getV gd = false →
    exec i s = .next { s with responses := s.responses ++ [0x3#4 ++ 0#64] })

/-- A command that reads `gs` and writes `gd`: its errors (R57, R58). -/
def Sys2Proof.pairErrors (i : Instr) (gd gs : CtxIx) (s : State) : Prop :=
  (s.params.ngen ≤ gd.toNat ∨ s.params.ngen ≤ gs.toNat →
    exec i s = .next { s with responses := s.responses ++ [0x2#4 ++ 0#64] }) ∧
  (gd.toNat < s.params.ngen → gs.toNat < s.params.ngen → s.getV gs = false →
    exec i s = .next { s with responses := s.responses ++ [0x3#4 ++ 0#64] })

/-- 41_step_output.md R47. -/
def Obligations.StepAdvancesState : Prop :=
  (∀ (gd : CtxIx) (s : State), gd.toNat < s.params.ngen → s.getV gd = true →
    exec (.step gd) s =
      .next { s.setG gd (0x1000000000000003 * s.getG gd) with
        responses := s.responses ++ [0x0#4 ++ 0#64] }) ∧
  (∀ (gd : CtxIx) (s : State), contextErrors (.step gd) gd s) ∧
  formatUWords 0x3 .step

/-- 41_step_output.md R48. -/
def Obligations.Next32ReturnsOutputOfUpdatedState : Prop :=
  (∀ (gd : CtxIx) (s : State), gd.toNat < s.params.ngen → s.getV gd = true →
    let s1 := 0x1000000000000003 * s.getG gd
    exec (.next32 gd) s =
      .next { s.setG gd s1 with responses := s.responses ++ [0x0#4 ++ (0#32 ++ permute s1)] }) ∧
  (∀ (gd : CtxIx) (s : State), contextErrors (.next32 gd) gd s) ∧
  formatUWords 0x4 .next32

/-- 41_step_output.md R49. -/
def Obligations.Next64ReturnsTwoOutputs : Prop :=
  (∀ (gd : CtxIx) (s : State), gd.toNat < s.params.ngen → s.getV gd = true →
    let s1 := 0x1000000000000003 * s.getG gd
    let s2 := 0x1000000000000003 * s1
    exec (.next64 gd) s =
      .next { s.setG gd s2 with responses := s.responses ++ [0x0#4 ++ (permute s1 ++ permute s2)] }) ∧
  (∀ (gd : CtxIx) (s : State), contextErrors (.next64 gd) gd s) ∧
  formatUWords 0x5 .next64

/-- 42_skip.md R53, with R52's net multiplier. What the sequencer's registers hold afterwards is left open here, as R15 leaves
it. -/
def Obligations.SkipMultipliesByNetmul : Prop :=
  (∀ (gd : CtxIx) (n : Word) (s : State), gd.toNat < s.params.ngen → s.getV gd = true →
    ∃ q : SkipSeq, exec (.skip gd n) s =
      .next { s.setG gd (s.getG gd * netmul n) with
        skipSeq := q, responses := s.responses ++ [0x0#4 ++ 0#64] }) ∧
  (∀ (gd : CtxIx) (n : Word) (s : State), contextErrors (.skip gd n) gd s) ∧
  (∀ (p : Params) (gd gs : CtxIx) (rsv : BitVec 4) (n : Word),
    (gs = 0 ∧ rsv = 0 → decode p (0x6#4 ++ gd ++ gs ++ rsv ++ n) = .ok (.skip gd n)) ∧
    (gs ≠ 0 ∨ rsv ≠ 0 → ∃ e, decode p (0x6#4 ++ gd ++ gs ++ rsv ++ n) = .error e)) ∧
  (∀ n : Word, netmul n =
    if 0 ≤ sval n then powMul 0x1000000000000003 (sval n).natAbs
    else powMul 0x1AAAAAAAAAAAAAAB (sval n).natAbs)

/-- 43_stream_clone_read.md R57, and for `gd = gs` 70_reset_and_hazards.md R77: the child's seed remains. -/
def Obligations.NewstreamSeedsChild : Prop :=
  (∀ (gd gs : CtxIx) (s : State), gd.toNat < s.params.ngen → gs.toNat < s.params.ngen → s.getV gs = true →
    let s1 := 0x1000000000000003 * s.getG gs
    let s2 := 0x1000000000000003 * s1
    let child : Word := if permute s1 ++ permute s2 = 0#64 then 1 else permute s1 ++ permute s2
    ∃ t, exec (.newstream gd gs) s = .next t ∧
      t = { ((s.setG gs s2).setG gd child).setV gd with responses := s.responses ++ [0x0#4 ++ 0#64] } ∧
      t.getG gd = child ∧ (gd ≠ gs → t.getG gs = s2)) ∧
  (∀ (gd gs : CtxIx) (s : State), pairErrors (.newstream gd gs) gd gs s) ∧
  formatRWords 0x7 .newstream

/-- 43_stream_clone_read.md R58, and for `gd = gs` 70_reset_and_hazards.md R77: nothing changes. -/
def Obligations.CloneCopiesState : Prop :=
  (∀ (gd gs : CtxIx) (s : State), gd.toNat < s.params.ngen → gs.toNat < s.params.ngen → s.getV gs = true →
    exec (.clone gd gs) s =
      .next { (s.setG gd (s.getG gs)).setV gd with responses := s.responses ++ [0x0#4 ++ 0#64] }) ∧
  (∀ (g : CtxIx) (s : State), g.toNat < s.params.ngen → s.getV g = true →
    exec (.clone g g) s = .next { s with responses := s.responses ++ [0x0#4 ++ 0#64] }) ∧
  (∀ (gd gs : CtxIx) (s : State), pairErrors (.clone gd gs) gd gs s) ∧
  formatRWords 0x8 .clone

/-- 43_stream_clone_read.md R59; the value is never 0 where R12 holds. -/
def Obligations.RdstateReturnsState : Prop :=
  (∀ (gd : CtxIx) (s : State), gd.toNat < s.params.ngen → s.getV gd = true →
    exec (.rdstate gd) s = .next { s with responses := s.responses ++ [0x0#4 ++ s.getG gd] } ∧
    (s.NonZeroSeeded → s.getG gd ≠ 0)) ∧
  (∀ (gd : CtxIx) (s : State), contextErrors (.rdstate gd) gd s) ∧
  formatUWords 0x9 .rdstate

/-! ### Relations between commands -/

/-- 41_step_output.md R49 (corner cases), 20_memory.md R22: `NEXT64` leaves the contexts two `NEXT32` leave, and returns
their two outputs, the first high. -/
def Obligations.Next64IsTwoNext32 : Prop :=
  ∀ (gd : CtxIx) (s : State), gd.toNat < s.params.ngen → s.getV gd = true →
    ∃ (t t1 t2 : State) (d1 d2 : Word),
      exec (.next64 gd) s = .next t ∧ exec (.next32 gd) s = .next t1 ∧ exec (.next32 gd) t1 = .next t2 ∧
      t1.responses = s.responses ++ [0x0#4 ++ d1] ∧
      t2.responses = t1.responses ++ [0x0#4 ++ d2] ∧
      t.responses = s.responses ++ [0x0#4 ++ (d1.extractLsb' 0 32 ++ d2.extractLsb' 0 32)] ∧
      t.g = t2.g ∧ t.v = t2.v

/-- 43_stream_clone_read.md R57 (corner cases): for `gd ≠ gs`, `NEWSTREAM gd, gs` leaves the contexts that `NEXT64 gs` and then
`SEED64 gd` of its data leave. -/
def Obligations.NewstreamIsNext64ThenSeed64 : Prop :=
  ∀ (gd gs : CtxIx) (s : State), gd ≠ gs → gd.toNat < s.params.ngen → gs.toNat < s.params.ngen →
    s.getV gs = true →
    ∃ (t t1 t2 : State) (d : Word),
      exec (.newstream gd gs) s = .next t ∧ exec (.next64 gs) s = .next t1 ∧
      t1.responses = s.responses ++ [0x0#4 ++ d] ∧ exec (.seed64 gd d) t1 = .next t2 ∧
      t.g = t2.g ∧ t.v = t2.v

/-- 42_skip.md R56: a skip by `k ≥ 0` leaves the contexts that `k` steps leave, and that `k` 32-bit outputs leave; a skip by
`k` and then one output answers as the last of `k + 1` outputs does, and leaves the same contexts. -/
def Obligations.SkipEqualsSteps : Prop :=
  ∀ (gd : CtxIx) (k : Nat) (s : State), k < 2 ^ 63 → gd.toNat < s.params.ngen → s.getV gd = true →
    ∃ t u o t' o' : State,
      exec (.skip gd (BitVec.ofNat 64 k)) s = .next t ∧
      execAll (List.replicate k (.step gd)) s = .next u ∧
      execAll (List.replicate k (.next32 gd)) s = .next o ∧
      exec (.next32 gd) t = .next t' ∧
      execAll (List.replicate (k + 1) (.next32 gd)) s = .next o' ∧
      t.g = u.g ∧ t.v = u.v ∧ t.g = o.g ∧ t.v = o.v ∧ t.getG gd = update^[k] (s.getG gd) ∧
      t'.g = o'.g ∧ t'.v = o'.v ∧ t'.responses.getLast? = o'.responses.getLast?

/-- 42_skip.md section 3 (R55 at the commands): `SKIP k` then `SKIP -k` restores every context, and two skips compose, for
every 64-bit count and every state of a seeded context. -/
def Obligations.SkipsComposeAndInvert : Prop :=
  ∀ (gd : CtxIx) (a b : Word) (s : State), gd.toNat < s.params.ngen → s.getV gd = true →
    ∃ t u x c : State,
      exec (.skip gd a) s = .next t ∧ exec (.skip gd (-a)) t = .next u ∧
      exec (.skip gd b) t = .next x ∧ exec (.skip gd (a + b)) s = .next c ∧
      u.g = s.g ∧ u.v = s.v ∧ x.g = c.g ∧ x.v = c.v

/-- A one-context command moved to context `g`. -/
def Sys2Proof.retarget (g : CtxIx) : Instr → Instr
  | .seed64 _ x => .seed64 g x
  | .seedb _ x => .seedb g x
  | .step _ => .step g
  | .next32 _ => .next32 g
  | .next64 _ => .next64 g
  | .skip _ n => .skip g n
  | .newstream d s => .newstream d s
  | .clone d s => .clone d s
  | .rdstate _ => .rdstate g

/-- 43_stream_clone_read.md R58 (corner cases), 10_state.md R17: after `CLONE gd, gs` with `gd ≠ gs`, the same sequence of
one-context commands applied to `gd` and to `gs` gives the same responses and the same state of the context used, and leaves
the other where it was. -/
def Obligations.CloneTwinsAgree : Prop :=
  ∀ (gd gs : CtxIx) (is : List Instr) (s t : State), gd ≠ gs →
    gd.toNat < s.params.ngen → gs.toNat < s.params.ngen → s.getV gs = true →
    (∀ i ∈ is, i.names.length = 1) → exec (.clone gd gs) s = .next t →
      ∃ a b : State,
        execAll (is.map (retarget gd)) t = .next a ∧ execAll (is.map (retarget gs)) t = .next b ∧
        a.responses = b.responses ∧ a.getG gd = b.getG gs ∧
        a.getG gs = t.getG gs ∧ b.getG gd = t.getG gd

/-- 30_encoding.md R37, 20_memory.md R23: `FILL gd, L` with `L` a multiple of 4 is `L/4` times `NEXT32 gd`, and its `L` bytes are
the outputs of the successive updated states, in order, each little-endian; another `L` is refused. -/
def Obligations.FillIsLittleEndianOutputs : Prop :=
  (∀ (gd : CtxIx) (len : Nat) (s : State), 4 ∣ len → gd.toNat < s.params.ngen → s.getV gd = true →
    ∃ t, fillCommands gd len = some (List.replicate (len / 4) (.next32 gd)) ∧
      execAll (List.replicate (len / 4) (.next32 gd)) s = .next t ∧
      fillBytes (t.responses.drop s.responses.length) =
        (List.range (len / 4)).flatMap (fun j =>
          let o := (permute (update^[j + 1] (s.getG gd))).toNat
          [BitVec.ofNat 8 o, BitVec.ofNat 8 (o / 2 ^ 8), BitVec.ofNat 8 (o / 2 ^ 16), BitVec.ofNat 8 (o / 2 ^ 24)]) ∧
      (fillBytes (t.responses.drop s.responses.length)).length = len) ∧
  (∀ (gd : CtxIx) (len : Nat), ¬ 4 ∣ len → fillCommands gd len = none)

/-! ### Frames, invariants, what the host cannot see -/

/-- 10_state.md R17: a command changes no context but those R10's table lists under "writes", and what an answered command
writes, and returns, depends on no context but those listed under "reads". -/
def Obligations.ContextsAreIndependent : Prop :=
  (∀ (i : Instr) (s t : State) (j : CtxIx), exec i s = .next t → j ∉ i.writes →
    t.getG j = s.getG j ∧ t.getV j = s.getV j) ∧
  (∀ (i : Instr) (s t s' t' : State) (r : RspWord), s.params = s'.params →
    (∀ g ∈ i.reads, s.getG g = s'.getG g ∧ s.getV g = s'.getV g) →
    exec i s = .next t → exec i s' = .next t' → t.responses = s.responses ++ [r] → rspStatus r = 0 →
      t'.responses = s'.responses ++ [r] ∧
      ∀ j ∈ i.writes, t.getG j = t'.getG j ∧ (j ∈ i.seeds → t.getV j = t'.getV j))

/-- 10_state.md R14, R15, R13: no command changes the parameters or what the host has issued; only `SKIP` writes `ACC`, `BASE`,
`CNT`, only `SEEDB` writes `SACC`, `SIDX`; earlier responses stay and one is added. The free-value counter (log 9) is the
model's own. -/
def Obligations.FrameOfOtherState : Prop :=
  ∀ (i : Instr) (s t : State), exec i s = .next t →
    s.SamePort t ∧ (∃ r, t.responses = s.responses ++ [r]) ∧
    ((∀ gd n, i ≠ .skip gd n) → t.skipSeq = s.skipSeq) ∧
    ((∀ gd x, i ≠ .seedb gd x) → t.seedSeq = s.seedSeq)

/-- 10_state.md R11: a command answered `OK` sets the valid bits of the contexts it seeds and leaves the others; any other
command leaves all; no command clears one. -/
def Obligations.ValidBitsAreOnlySet : Prop :=
  ∀ (i : Instr) (s t : State) (r : RspWord) (j : CtxIx),
    exec i s = .next t → t.responses = s.responses ++ [r] →
      t.getV j = (s.getV j || (decide (rspStatus r = 0) && decide (j ∈ i.seeds)))

/-- 10_state.md R12, R10, 30_encoding.md R31: every step keeps legal parameters, non-zero seeded contexts, no valid bit past
`NGEN` (the model's layout, log 2) and legal responses. -/
def Obligations.StepKeepsInvariant : Prop :=
  ∀ s t : State, s.Inv → step s = .next t → t.Inv

/-- The invariant holds after reset, whatever R18 leaves unspecified and for every legal choice of the parameters, and at
`State.reset`, whose unspecified contents are the model's choice (log 3, log 4). -/
def Obligations.ResetMeetsInvariant : Prop :=
  State.reset.Inv ∧
  ∀ (p : Params) (g : Vector Word 16) (a : SkipSeq) (b : SeedSeq), p.Legal → (State.resetOf p g a b).Inv

/-- 10_state.md R12: from reset, with any contents R18 leaves unspecified, any legal parameters and any commands and resets
issued, no seeded context ever holds 0 between two commands. -/
def Obligations.SeededStatesNeverZero : Prop :=
  ∀ (p : Params) (g : Vector Word 16) (a : SkipSeq) (b : SeedSeq) (events : List HostEvent) (n : Nat) (t : State),
    p.Legal → core.run n { State.resetOf p g a b with input := events } = .next t →
      ∀ i : CtxIx, t.getV i = true → t.getG i ≠ 0

/-- 70_reset_and_hazards.md R70, 10_state.md R18: a reset, also one during a command, gives no response, makes every valid bit
0 and keeps the parameters; the next event is then the next to be taken. That a reset is an event of the host's list is the
model's choice (log 8). -/
def Obligations.ResetClearsEveryValidBit : Prop :=
  ∀ (s : State) (inProgress : Option CmdWord) (rest : List HostEvent),
    s.input = .reset inProgress :: rest →
      ∃ t, step s = .next t ∧ (∀ i : CtxIx, t.getV i = false) ∧ t.params = s.params ∧
        t.responses = s.responses ∧ t.input = rest

/-- 10_state.md R15, R19, 93_implementation_defined.md U1, U2: what unseeded contexts and hidden registers hold never shows: two
states the host cannot tell apart stay so, with the same responses, over any number of steps. -/
def Obligations.UnspecifiedContentsNeverShow : Prop :=
  ∀ (n : Nat) (s t : State), s.LooksLike t →
    ∃ s' t' : State, core.run n s = .next s' ∧ core.run n t = .next t' ∧ s'.LooksLike t'
end

