-- ==== Sys2Proof/Laws/Arith.lean ====
section
/-! SUPPORT. Arithmetic modulo 2^64 (41_step_output.md R45, R50; 42_skip.md R52): `powMul` is the power of the ring of 64-bit
words, `MULT` and `MULT_INV` are units, the update is multiplication by a unit. -/

namespace Sys2Proof.Machine

/-- `pow(a, k)` of 00_scope.md section 6 is the ring's power. -/
theorem powMul_eq_pow (a : Word) (k : Nat) : powMul a k = a ^ k := by
  induction k with
  | zero => rfl
  | succ n ih => rw [powMul, ih, pow_succ']

theorem powMul_add (a : Word) (j k : Nat) : powMul a (j + k) = powMul a j * powMul a k := by
  simp only [powMul_eq_pow, pow_add]

theorem powMul_inv_mul (k : Nat) : powMul MULT_INV k * powMul MULT k = 1 := by
  rw [powMul_eq_pow, powMul_eq_pow, ← mul_pow, mul_comm, mult_mul_multInv, one_pow]

/-- R45 in natural numbers. -/
theorem update_toNat (x : Word) : (update x).toNat = 0x1000000000000003 * x.toNat % 2 ^ 64 := by
  rw [update, BitVec.toNat_mul]
  rfl

@[simp] theorem multInv_mul_update (x : Word) : MULT_INV * update x = x := by
  rw [update, ← mul_assoc, mul_comm MULT_INV, mult_mul_multInv, one_mul]

@[simp] theorem update_multInv_mul (x : Word) : update (MULT_INV * x) = x := by
  rw [update, ← mul_assoc, mult_mul_multInv, one_mul]

/-- A word times a unit is zero only for zero (10_state.md R12). -/
theorem mul_unit_ne_zero {x u v : Word} (hx : x ≠ 0) (huv : u * v = 1) : x * u ≠ 0 := by
  intro h
  apply hx
  rw [← mul_one x, ← huv, ← mul_assoc, h, zero_mul]

theorem update_ne_zero {x : Word} (hx : x ≠ 0) : update x ≠ 0 := by
  rw [update, mul_comm]
  exact mul_unit_ne_zero hx mult_mul_multInv

/-- R40: `seed` never returns 0. -/
@[simp] theorem seed_ne_zero (v : Word) : seed v ≠ 0#64 := by
  unfold seed
  split
  · decide
  · assumption

end Sys2Proof.Machine
end

