-- ==== Sys2Proof/Laws/Encoding.lean ====
section
/-! SUPPORT. The fields of a packed word and the word of packed fields (30_encoding.md R30), and what the decoder accepts
format by format (R32, R34). -/

namespace Sys2Proof

/-- R30: the fields of a packed word are the fields packed. -/
@[simp] theorem fieldsOf_packFields (f : Fields) : fieldsOf (packFields f) = f := by
  obtain ⟨op, gd, gs, rsv, opd⟩ := f
  simp only [fieldsOf, packFields, Fields.mk.injEq]
  refine ⟨?_, ?_, ?_, ?_, ?_⟩ <;>
  · apply BitVec.eq_of_getLsbD_eq
    intro i hi
    simp only [BitVec.getLsbD_extractLsb', BitVec.getLsbD_append, hi, decide_true, Bool.true_and]
    split_ifs <;> first | omega | (congr 1; omega)

/-- R30: a word is packed from its own fields. -/
@[simp] theorem packFields_fieldsOf (w : CmdWord) : packFields (fieldsOf w) = w := by
  apply BitVec.eq_of_getLsbD_eq
  intro i hi
  simp only [packFields, fieldsOf, BitVec.getLsbD_append, BitVec.getLsbD_extractLsb']
  split_ifs <;> (try simp only [*, decide_true, Bool.true_and]) <;>
    first
    | (rw [Nat.zero_add])
    | (congr 1; omega)
    | (rw [decide_eq_true (by omega), Bool.true_and]; congr 1; omega)

/-- The bitwise and of two packed words is that of their fields (R33: a word against a mask). -/
theorem packFields_and (f f' : Fields) :
    packFields f &&& packFields f' =
      packFields { op := f.op &&& f'.op, gd := f.gd &&& f'.gd, gs := f.gs &&& f'.gs,
                   rsv := f.rsv &&& f'.rsv, opd := f.opd &&& f'.opd } := by
  apply BitVec.eq_of_getLsbD_eq
  intro i _
  simp only [packFields, BitVec.getLsbD_and, BitVec.getLsbD_append]
  split_ifs <;> rfl

theorem fieldsOf_inj {w w' : CmdWord} (h : fieldsOf w = fieldsOf w') : w = w' := by
  rw [← packFields_fieldsOf w, h, packFields_fieldsOf]

/-- The fields of a command's word (R36). -/
@[simp] theorem fieldsOf_encode (i : Instr) : fieldsOf (encode i) = i.fields := by
  simp [encode]

theorem acceptI_ok {f : Fields} {c i : Instr} :
    acceptI f c = .ok i ↔ f.rsv = 0 ∧ f.gs = 0 ∧ c = i := by
  simp only [acceptI]; split_ifs <;> simp_all

theorem acceptU_ok {f : Fields} {c i : Instr} :
    acceptU f c = .ok i ↔ f.rsv = 0 ∧ f.gs = 0 ∧ f.opd = 0 ∧ c = i := by
  simp only [acceptU]; split_ifs <;> simp_all

theorem acceptR_ok {f : Fields} {c i : Instr} :
    acceptR f c = .ok i ↔ f.rsv = 0 ∧ f.opd = 0 ∧ c = i := by
  simp only [acceptR]; split_ifs <;> simp_all

theorem acceptI_error {f : Fields} {c : Instr} :
    (∃ e, acceptI f c = .error e) ↔ f.rsv ≠ 0 ∨ f.gs ≠ 0 := by
  simp only [acceptI]; split_ifs <;> simp_all

theorem acceptU_error {f : Fields} {c : Instr} :
    (∃ e, acceptU f c = .error e) ↔ f.rsv ≠ 0 ∨ f.gs ≠ 0 ∨ f.opd ≠ 0 := by
  simp only [acceptU]; split_ifs <;> simp_all

theorem acceptR_error {f : Fields} {c : Instr} :
    (∃ e, acceptR f c = .error e) ↔ f.rsv ≠ 0 ∨ f.opd ≠ 0 := by
  simp only [acceptR]; split_ifs <;> simp_all

/-- Every opcode is one of the nine or reserved (R33). -/
theorem opcode_cases (op : BitVec 4) :
    (op = 0x1 ∨ op = 0x2 ∨ op = 0x3 ∨ op = 0x4 ∨ op = 0x5 ∨ op = 0x6 ∨ op = 0x7 ∨ op = 0x8 ∨ op = 0x9) ∨
    (op = 0x0 ∨ 0xA ≤ op) := by
  revert op; decide

/-- A reserved opcode is none of the nine (R33, R34). -/
theorem reserved_opcode {op : BitVec 4} (h : op = 0x0 ∨ 0xA ≤ op) :
    op ≠ 0x1 ∧ op ≠ 0x2 ∧ op ≠ 0x3 ∧ op ≠ 0x4 ∧ op ≠ 0x5 ∧ op ≠ 0x6 ∧ op ≠ 0x7 ∧ op ≠ 0x8 ∧ op ≠ 0x9 := by
  revert op; decide

end Sys2Proof
end

