-- ==== Sys2Proof/Laws/State.lean ====
section
/-! SUPPORT. One lemma per field of the state per update, true by `rfl`, and the read-after-write laws of the context file
(10_state.md R10, R11, R17). -/

namespace Sys2Proof.Machine

@[simp] theorem State.setG_params (s : State) (i : CtxIx) (x : Word) : (s.setG i x).params = s.params := rfl
@[simp] theorem State.setG_g (s : State) (i : CtxIx) (x : Word) : (s.setG i x).g = s.g.set i.toNat x i.isLt := rfl
@[simp] theorem State.setG_v (s : State) (i : CtxIx) (x : Word) : (s.setG i x).v = s.v := rfl
@[simp] theorem State.setG_skipSeq (s : State) (i : CtxIx) (x : Word) : (s.setG i x).skipSeq = s.skipSeq := rfl
@[simp] theorem State.setG_seedSeq (s : State) (i : CtxIx) (x : Word) : (s.setG i x).seedSeq = s.seedSeq := rfl
@[simp] theorem State.setG_input (s : State) (i : CtxIx) (x : Word) : (s.setG i x).input = s.input := rfl
@[simp] theorem State.setG_responses (s : State) (i : CtxIx) (x : Word) : (s.setG i x).responses = s.responses := rfl
@[simp] theorem State.setG_fresh (s : State) (i : CtxIx) (x : Word) : (s.setG i x).fresh = s.fresh := rfl

@[simp] theorem State.setG_getV (s : State) (i : CtxIx) (x : Word) (j : CtxIx) : (s.setG i x).getV j = s.getV j := by
  simp only [State.getV, State.setG]

@[simp] theorem State.setV_params (s : State) (i : CtxIx) : (s.setV i).params = s.params := rfl
@[simp] theorem State.setV_g (s : State) (i : CtxIx) : (s.setV i).g = s.g := rfl
@[simp] theorem State.setV_v (s : State) (i : CtxIx) : (s.setV i).v = s.v.set i.toNat true i.isLt := rfl
@[simp] theorem State.setV_skipSeq (s : State) (i : CtxIx) : (s.setV i).skipSeq = s.skipSeq := rfl
@[simp] theorem State.setV_seedSeq (s : State) (i : CtxIx) : (s.setV i).seedSeq = s.seedSeq := rfl
@[simp] theorem State.setV_input (s : State) (i : CtxIx) : (s.setV i).input = s.input := rfl
@[simp] theorem State.setV_responses (s : State) (i : CtxIx) : (s.setV i).responses = s.responses := rfl
@[simp] theorem State.setV_fresh (s : State) (i : CtxIx) : (s.setV i).fresh = s.fresh := rfl

@[simp] theorem State.setV_getG (s : State) (i : CtxIx) (j : CtxIx) : (s.setV i).getG j = s.getG j := by
  simp only [State.getG, State.setV]

@[simp] theorem State.setSkipSeq_params (s : State) (r : SkipSeq) : (s.setSkipSeq r).params = s.params := rfl
@[simp] theorem State.setSkipSeq_g (s : State) (r : SkipSeq) : (s.setSkipSeq r).g = s.g := rfl
@[simp] theorem State.setSkipSeq_v (s : State) (r : SkipSeq) : (s.setSkipSeq r).v = s.v := rfl
@[simp] theorem State.setSkipSeq_skipSeq (s : State) (r : SkipSeq) : (s.setSkipSeq r).skipSeq = r := rfl
@[simp] theorem State.setSkipSeq_seedSeq (s : State) (r : SkipSeq) : (s.setSkipSeq r).seedSeq = s.seedSeq := rfl
@[simp] theorem State.setSkipSeq_input (s : State) (r : SkipSeq) : (s.setSkipSeq r).input = s.input := rfl
@[simp] theorem State.setSkipSeq_responses (s : State) (r : SkipSeq) : (s.setSkipSeq r).responses = s.responses := rfl
@[simp] theorem State.setSkipSeq_fresh (s : State) (r : SkipSeq) : (s.setSkipSeq r).fresh = s.fresh := rfl

@[simp] theorem State.setSkipSeq_getG (s : State) (r : SkipSeq) (j : CtxIx) : (s.setSkipSeq r).getG j = s.getG j := by
  simp only [State.getG, State.setSkipSeq]
@[simp] theorem State.setSkipSeq_getV (s : State) (r : SkipSeq) (j : CtxIx) : (s.setSkipSeq r).getV j = s.getV j := by
  simp only [State.getV, State.setSkipSeq]

@[simp] theorem State.setSeedSeq_params (s : State) (r : SeedSeq) : (s.setSeedSeq r).params = s.params := rfl
@[simp] theorem State.setSeedSeq_g (s : State) (r : SeedSeq) : (s.setSeedSeq r).g = s.g := rfl
@[simp] theorem State.setSeedSeq_v (s : State) (r : SeedSeq) : (s.setSeedSeq r).v = s.v := rfl
@[simp] theorem State.setSeedSeq_skipSeq (s : State) (r : SeedSeq) : (s.setSeedSeq r).skipSeq = s.skipSeq := rfl
@[simp] theorem State.setSeedSeq_seedSeq (s : State) (r : SeedSeq) : (s.setSeedSeq r).seedSeq = r := rfl
@[simp] theorem State.setSeedSeq_input (s : State) (r : SeedSeq) : (s.setSeedSeq r).input = s.input := rfl
@[simp] theorem State.setSeedSeq_responses (s : State) (r : SeedSeq) : (s.setSeedSeq r).responses = s.responses := rfl
@[simp] theorem State.setSeedSeq_fresh (s : State) (r : SeedSeq) : (s.setSeedSeq r).fresh = s.fresh := rfl

@[simp] theorem State.setSeedSeq_getG (s : State) (r : SeedSeq) (j : CtxIx) : (s.setSeedSeq r).getG j = s.getG j := by
  simp only [State.getG, State.setSeedSeq]
@[simp] theorem State.setSeedSeq_getV (s : State) (r : SeedSeq) (j : CtxIx) : (s.setSeedSeq r).getV j = s.getV j := by
  simp only [State.getV, State.setSeedSeq]

@[simp] theorem State.respond_params (s : State) (st : Status) (d : Word) : (s.respond st d).params = s.params := rfl
@[simp] theorem State.respond_g (s : State) (st : Status) (d : Word) : (s.respond st d).g = s.g := rfl
@[simp] theorem State.respond_v (s : State) (st : Status) (d : Word) : (s.respond st d).v = s.v := rfl
@[simp] theorem State.respond_skipSeq (s : State) (st : Status) (d : Word) : (s.respond st d).skipSeq = s.skipSeq := rfl
@[simp] theorem State.respond_seedSeq (s : State) (st : Status) (d : Word) : (s.respond st d).seedSeq = s.seedSeq := rfl
@[simp] theorem State.respond_input (s : State) (st : Status) (d : Word) : (s.respond st d).input = s.input := rfl
@[simp] theorem State.respond_responses (s : State) (st : Status) (d : Word) : (s.respond st d).responses = s.responses ++ [responseWord st d] := rfl
@[simp] theorem State.respond_fresh (s : State) (st : Status) (d : Word) : (s.respond st d).fresh = s.fresh := rfl

@[simp] theorem State.respond_getG (s : State) (st : Status) (d : Word) (j : CtxIx) : (s.respond st d).getG j = s.getG j := by
  simp only [State.getG, State.respond]
@[simp] theorem State.respond_getV (s : State) (st : Status) (d : Word) (j : CtxIx) : (s.respond st d).getV j = s.getV j := by
  simp only [State.getV, State.respond]

/-- A context reads back what was written; every other is as it was. -/
theorem State.getG_setG (s : State) (i j : CtxIx) (x : Word) :
    (s.setG i x).getG j = if j = i then x else s.getG j := by
  simp only [State.getG, State.setG, Vector.getElem_set, BitVec.toNat_inj, eq_comm]

@[simp] theorem State.getG_setG_self (s : State) (i : CtxIx) (x : Word) : (s.setG i x).getG i = x := by
  simp [State.getG_setG]

@[simp] theorem State.getG_setG_ne (s : State) {i j : CtxIx} (x : Word) (h : j ≠ i) :
    (s.setG i x).getG j = s.getG j := by
  simp [State.getG_setG, h]

/-- A valid bit once set reads 1; every other is as it was. -/
theorem State.getV_setV (s : State) (i j : CtxIx) :
    (s.setV i).getV j = (decide (j = i) || s.getV j) := by
  by_cases h : j = i
  · subst h; simp [State.getV, State.setV]
  · have h' : i.toNat ≠ j.toNat := fun e => h (BitVec.eq_of_toNat_eq e.symm)
    simp [State.getV, State.setV, h, h']

@[simp] theorem State.getV_setV_self (s : State) (i : CtxIx) : (s.setV i).getV i = true := by
  simp [State.getV_setV]

@[simp] theorem State.getV_setV_ne (s : State) {i j : CtxIx} (h : j ≠ i) : (s.setV i).getV j = s.getV j := by
  simp [State.getV_setV, h]

/-- Writing a context with what it holds changes nothing. -/
@[simp] theorem State.setG_getG (s : State) (i : CtxIx) : s.setG i (s.getG i) = s := by
  simp [State.setG, State.getG]

/-- The last write of a context wins (70_reset_and_hazards.md R77). -/
@[simp] theorem State.setG_setG (s : State) (i : CtxIx) (x y : Word) : (s.setG i x).setG i y = s.setG i y := by
  simp [State.setG]

/-- Setting a valid bit that is set changes nothing. -/
theorem State.setV_of_getV (s : State) (i : CtxIx) (h : s.getV i = true) : s.setV i = s := by
  have hv : s.v.set i.toNat true i.isLt = s.v := by
    rw [← h]; simp [State.getV]
  simp [State.setV, hv]

/-- Two context files agree when every context reads the same. -/
theorem State.g_ext {s t : State} (h : ∀ i : CtxIx, s.getG i = t.getG i) : s.g = t.g := by
  apply Vector.ext
  intro i hi
  have := h (BitVec.ofNat 4 i)
  simpa [State.getG, Nat.mod_eq_of_lt hi] using this

/-- Two vectors of valid bits agree when every bit reads the same. -/
theorem State.v_ext {s t : State} (h : ∀ i : CtxIx, s.getV i = t.getV i) : s.v = t.v := by
  apply Vector.ext
  intro i hi
  have := h (BitVec.ofNat 4 i)
  simpa [State.getV, Nat.mod_eq_of_lt hi] using this

/-! Reset (70_reset_and_hazards.md R70). -/

@[simp] theorem State.applyReset_params (s : State) : s.applyReset.params = s.params := rfl
@[simp] theorem State.applyReset_v (s : State) : s.applyReset.v = Vector.replicate 16 false := rfl
@[simp] theorem State.applyReset_input (s : State) : s.applyReset.input = s.input := rfl
@[simp] theorem State.applyReset_responses (s : State) : s.applyReset.responses = s.responses := rfl
@[simp] theorem State.applyReset_fresh (s : State) : s.applyReset.fresh = s.fresh + 21 := rfl

@[simp] theorem State.applyReset_getV (s : State) (i : CtxIx) : s.applyReset.getV i = false := by
  simp [State.getV]

@[simp] theorem State.resetOf_getV (p : Params) (g : Vector Word 16) (a : SkipSeq) (b : SeedSeq) (i : CtxIx) :
    (State.resetOf p g a b).getV i = false := by
  simp [State.getV, State.resetOf]

end Sys2Proof.Machine
end

