-- ==== Sys2Proof/Laws/Ops.lean ====
section
/-! SUPPORT. What each shared operation of Machine/Ops.lean, Machine/Flags.lean and Machine/Command.lean can do: a command
completes, or its first failing check raises; when each check fails; what a response word holds. -/

namespace Sys2Proof.Machine

/-! Response words (30_encoding.md R31). -/

@[simp] theorem rspStatus_append (c : BitVec 4) (d : Word) : rspStatus (c ++ d) = c :=
  BitVec.extractLsb'_append_eq_left

@[simp] theorem rspData_append (c : BitVec 4) (d : Word) : rspData (c ++ d) = d :=
  BitVec.extractLsb'_append_eq_right

@[simp] theorem rspStatus_responseWord (st : Status) (d : Word) : rspStatus (responseWord st d) = st.code :=
  rspStatus_append _ _

@[simp] theorem rspData_responseWord (st : Status) (d : Word) : rspData (responseWord st d) = d :=
  rspData_append _ _

theorem Status.code_le (st : Status) : st.code ≤ 3 := by cases st <;> decide

theorem Status.code_eq_zero (st : Status) : st.code = 0 ↔ st = .ok := by cases st <;> decide

/-! Checks (30_encoding.md R35 steps 3 and 4). -/

@[simp] theorem checkIndex_of_lt {i : CtxIx} {s : State} (h : i.toNat < s.params.ngen) : checkIndex i s = none := by
  simp [checkIndex, h]

@[simp] theorem checkIndex_of_le {i : CtxIx} {s : State} (h : s.params.ngen ≤ i.toNat) :
    checkIndex i s = some .badContext := by
  simp [checkIndex, Nat.not_lt.mpr h]

@[simp] theorem checkSeeded_of_true {i : CtxIx} {s : State} (h : s.getV i = true) : checkSeeded i s = none := by
  simp [checkSeeded, h]

@[simp] theorem checkSeeded_of_false {i : CtxIx} {s : State} (h : s.getV i = false) :
    checkSeeded i s = some .notSeeded := by
  simp [checkSeeded, h]

theorem checkContext_eq_none {gd : CtxIx} {s : State} :
    checkContext gd s = none ↔ gd.toNat < s.params.ngen ∧ s.getV gd = true := by
  simp [checkContext, checkIndex, checkSeeded, Option.or_eq_none_iff]

theorem checkPair_eq_none {gd gs : CtxIx} {s : State} :
    checkPair gd gs s = none ↔
      gd.toNat < s.params.ngen ∧ gs.toNat < s.params.ngen ∧ s.getV gs = true := by
  simp [checkPair, checkIndex, checkSeeded, Option.or_eq_none_iff]

theorem checkTarget_eq_none {gd : CtxIx} {s : State} :
    checkTarget gd s = none ↔ gd.toNat < s.params.ngen := by
  simp [checkTarget, checkIndex]

theorem checkSeedb_eq_none {gd : CtxIx} {s : State} :
    checkSeedb gd s = none ↔ s.params.hasSeedb = true ∧ gd.toNat < s.params.ngen := by
  simp only [checkSeedb]
  split <;> simp_all [checkTarget, checkIndex]

/-- No check answers `OK`: a check that fails names one of the three errors. -/
theorem check_ne_ok (gd gs : CtxIx) (s : State) :
    checkTarget gd s ≠ some .ok ∧ checkContext gd s ≠ some .ok ∧ checkPair gd gs s ≠ some .ok ∧
      checkSeedb gd s ≠ some .ok := by
  refine ⟨?_, ?_, ?_, ?_⟩ <;>
    simp only [checkSeedb, checkPair, checkContext, checkTarget, checkIndex, checkSeeded] <;>
    split_ifs <;> simp

/-! A command completes or raises (60_exceptions.md R63). -/

@[simp] theorem runCommand_none (body : State → State × Word) (s : State) :
    runCommand none body s = .next ((body s).1.respond .ok (body s).2) := rfl

@[simp] theorem runCommand_some (st : Status) (body : State → State × Word) (s : State) :
    runCommand (some st) body s = .next (s.respond st 0) := rfl

/-- Everything `runCommand` can do: the named check failed and nothing changed but the response, or every check passed and
the command's pseudocode ran. -/
theorem runCommand_cases {check : Option Status} {body : State → State × Word} {s t : State}
    (h : runCommand check body s = .next t) :
    (∃ st, check = some st ∧ t = s.respond st 0) ∨
    (check = none ∧ t = (body s).1.respond .ok (body s).2) := by
  cases check with
  | none => simp only [runCommand_none, Host.Outcome.next.injEq] at h; exact .inr ⟨rfl, h.symm⟩
  | some st => simp only [runCommand_some, Host.Outcome.next.injEq] at h; exact .inl ⟨st, rfl, h.symm⟩

/-- A command always answers a next state. -/
theorem runCommand_next (check : Option Status) (body : State → State × Word) (s : State) :
    ∃ t, runCommand check body s = .next t := by
  cases check <;> simp

/-! Taking the host's events in order (10_state.md R13; 20_memory.md R26). -/

@[simp] theorem takeEvent_nil {s : State} (h : s.input = []) : s.takeEvent = none := by
  simp [State.takeEvent, h]

@[simp] theorem takeEvent_cons {s : State} {e : HostEvent} {rest : List HostEvent} (h : s.input = e :: rest) :
    s.takeEvent = some (e, { s with input := rest }) := by
  simp [State.takeEvent, h]

theorem step_nil {s : State} (h : s.input = []) : step s = .next s := by
  simp [step, takeEvent_nil h]

theorem step_command {s : State} {w : CmdWord} {rest : List HostEvent} (h : s.input = .command w :: rest) :
    step s = execWord w { s with input := rest } := by
  simp [step, takeEvent_cons h, execEvent]

theorem step_reset {s : State} {o : Option CmdWord} {rest : List HostEvent} (h : s.input = .reset o :: rest) :
    step s = .next ({ s with input := rest }).applyReset := by
  simp [step, takeEvent_cons h, execEvent]

end Sys2Proof.Machine
end

