-- ==== Sys2Proof/Laws/Exec.lean ====
section
/-! SUPPORT. What `exec` can do, once for all nine commands: each is `runCommand` of its checks and its pseudocode, so it
raises the first failing check's error or completes with `OK` (30_encoding.md R35). -/

namespace Sys2Proof.Machine

/-- The checks of each command (R35 steps 3 and 4; R42). -/
def checkOf : Instr → State → Option Status
  | .seed64 gd _, s => checkTarget gd s
  | .seedb gd _, s => checkSeedb gd s
  | .step gd, s => checkContext gd s
  | .next32 gd, s => checkContext gd s
  | .next64 gd, s => checkContext gd s
  | .skip gd _, s => checkContext gd s
  | .newstream gd gs, s => checkPair gd gs s
  | .clone gd gs, s => checkPair gd gs s
  | .rdstate gd, s => checkContext gd s

/-- The state and the response data of each command once its checks have passed. -/
def bodyOf : Instr → State → State × Word
  | .seed64 gd imm, s => ((s.setG gd (seed imm)).setV gd, 0)
  | .seedb gd opd, s => (((s.setSeedSeq (seedSeqRun opd)).setG gd (seedSeqRun opd).sacc).setV gd, 0)
  | .step gd, s => (s.setG gd (update (s.getG gd)), 0)
  | .next32 gd, s => (s.setG gd (update (s.getG gd)), (permute (update (s.getG gd))).setWidth 64)
  | .next64 gd, s => (s.setG gd (update (update (s.getG gd))), output64 (s.getG gd))
  | .skip gd n, s => ((s.setSkipSeq (skipSeqRun n)).setG gd (s.getG gd * (skipSeqRun n).acc), 0)
  | .newstream gd gs, s =>
    (((s.setG gs (update (update (s.getG gs)))).setG gd (seed (output64 (s.getG gs)))).setV gd, 0)
  | .clone gd gs, s => ((s.setG gd (s.getG gs)).setV gd, 0)
  | .rdstate gd, s => (s, s.getG gd)

/-- `exec` is `runCommand` of a command's checks and its body. -/
theorem exec_eq (i : Instr) (s : State) : exec i s = runCommand (checkOf i s) (bodyOf i) s := by
  cases i <;> rfl

/-- A command whose checks pass completes. -/
theorem exec_of_check_none {i : Instr} {s : State} (h : checkOf i s = none) :
    exec i s = .next ((bodyOf i s).1.respond .ok (bodyOf i s).2) := by
  rw [exec_eq, h, runCommand_none]

/-- A command a check of which fails raises its error. -/
theorem exec_of_check_some {i : Instr} {s : State} {st : Status} (h : checkOf i s = some st) :
    exec i s = .next (s.respond st 0) := by
  rw [exec_eq, h, runCommand_some]

/-- Everything `exec` can do. -/
theorem exec_cases {i : Instr} {s t : State} (h : exec i s = .next t) :
    (∃ st, checkOf i s = some st ∧ t = s.respond st 0) ∨
    (checkOf i s = none ∧ t = (bodyOf i s).1.respond .ok (bodyOf i s).2) :=
  runCommand_cases (exec_eq i s ▸ h)

/-- No check fails with `OK`. -/
theorem checkOf_ne_ok (i : Instr) (s : State) : checkOf i s ≠ some .ok := by
  cases i <;> simp only [checkOf] <;>
    first
    | exact (check_ne_ok _ 0 s).1
    | exact (check_ne_ok _ 0 s).2.1
    | exact (check_ne_ok _ _ s).2.2.1
    | exact (check_ne_ok _ 0 s).2.2.2

/-- A command passes its checks exactly when the engine has it, its indices are in range and what it reads is seeded. -/
theorem checkOf_eq_none {i : Instr} {s : State} :
    checkOf i s = none ↔ i.wellFormed s.params = true ∧ ∀ g ∈ i.reads, s.getV g = true := by
  cases i <;>
    simp [checkOf, checkTarget_eq_none, checkSeedb_eq_none, checkContext_eq_none, checkPair_eq_none,
      Instr.wellFormed, Instr.encodable, Instr.inRange, Instr.names, Instr.reads, and_assoc]

/-- The checks depend on the parameters and the valid bits alone. -/
theorem checkOf_congr {s t : State} (i : Instr) (hp : s.params = t.params) (hv : s.v = t.v) :
    checkOf i s = checkOf i t := by
  have hV : ∀ j, s.getV j = t.getV j := fun j => by unfold State.getV; rw [hv]
  cases i <;>
    simp only [checkOf, checkTarget, checkContext, checkPair, checkSeedb, checkIndex, checkSeeded, hp, hV]

/-! What a command's body leaves alone. -/

@[simp] theorem bodyOf_params (i : Instr) (s : State) : (bodyOf i s).1.params = s.params := by cases i <;> rfl
@[simp] theorem bodyOf_input (i : Instr) (s : State) : (bodyOf i s).1.input = s.input := by cases i <;> rfl
@[simp] theorem bodyOf_responses (i : Instr) (s : State) : (bodyOf i s).1.responses = s.responses := by
  cases i <;> rfl
@[simp] theorem bodyOf_fresh (i : Instr) (s : State) : (bodyOf i s).1.fresh = s.fresh := by cases i <;> rfl

/-- The valid bits after a command's body (10_state.md R11). -/
theorem bodyOf_getV (i : Instr) (s : State) (j : CtxIx) :
    (bodyOf i s).1.getV j = (decide (j ∈ i.seeds) || s.getV j) := by
  cases i <;> simp [bodyOf, Instr.seeds, State.getV_setV]

/-- A context a command's body does not write (10_state.md R17). -/
theorem bodyOf_getG_of_notMem {i : Instr} {s : State} {j : CtxIx} (h : j ∉ i.writes) :
    (bodyOf i s).1.getG j = s.getG j := by
  cases i <;> simp_all [bodyOf, Instr.writes]

/-- Writing a context does not see what the host has issued. -/
theorem State.getG_withInput (s : State) (inp : List HostEvent) (j : CtxIx) :
    ({ s with input := inp } : State).getG j = s.getG j := rfl

/-- A command's body does not see what the host has issued (10_state.md R13). -/
theorem bodyOf_withInput (i : Instr) (s : State) (inp : List HostEvent) :
    bodyOf i { s with input := inp } = ({ (bodyOf i s).1 with input := inp }, (bodyOf i s).2) := by
  cases i <;> simp only [bodyOf, State.getG_withInput] <;> rfl

/-- Nor does a command (10_state.md R13). -/
theorem exec_withInput {i : Instr} {s t : State} (h : exec i s = .next t) (inp : List HostEvent) :
    exec i { s with input := inp } = .next { t with input := inp } := by
  rw [exec_eq] at h ⊢
  rw [checkOf_congr (s := { s with input := inp }) (t := s) i rfl rfl]
  cases hc : checkOf i s with
  | none =>
    rw [hc, runCommand_none, Host.Outcome.next.injEq] at h
    rw [runCommand_none, bodyOf_withInput, ← h]; rfl
  | some st =>
    rw [hc, runCommand_some, Host.Outcome.next.injEq] at h
    rw [runCommand_some, ← h]; rfl

end Sys2Proof.Machine
end

