-- ==== Sys2Proof/Laws/PerInstr.lean ====
section
/-! SUPPORT. Per command: its word matches its row of the match and mask table (30_encoding.md R33). -/

namespace Sys2Proof.Laws.RowMatch

/-- The word of the command matches the row of `opTable` with its mnemonic. -/
def Statement (i : Instr) : Prop :=
  ∃ row ∈ opTable, row.mnemonic = i.mnemonic ∧ encode i &&& row.mask = row.bits

/-- The mask of format I: `op`, `gs` and `rsv` (R33). -/
theorem mask_i : (0xF0FF_0000000000000000 : CmdWord) = packFields ⟨0xF#4, 0#4, 0xF#4, 0xF#4, 0#64⟩ := by decide

/-- The mask of format U: all but `gd` (R33). -/
theorem mask_u : (0xF0FF_FFFFFFFFFFFFFFFF : CmdWord) = packFields ⟨0xF#4, 0#4, 0xF#4, 0xF#4, 0xFFFFFFFFFFFFFFFF#64⟩ := by decide

/-- The mask of format R: `op`, `rsv` and `opd` (R33). -/
theorem mask_r : (0xF00F_FFFFFFFFFFFFFFFF : CmdWord) = packFields ⟨0xF#4, 0#4, 0#4, 0xF#4, 0xFFFFFFFFFFFFFFFF#64⟩ := by decide

theorem seed64 (gd : CtxIx) (imm : Word) : Statement (.seed64 gd imm) :=
  ⟨⟨"SEED64", 0x1000_0000000000000000, 0xF0FF_0000000000000000⟩, by simp [opTable], rfl, by
    simp only [encode, mask_i, packFields_and, Instr.fields, BitVec.and_zero]; rfl⟩

theorem seedb (gd : CtxIx) (opd : Word) : Statement (.seedb gd opd) :=
  ⟨⟨"SEEDB", 0x2000_0000000000000000, 0xF0FF_0000000000000000⟩, by simp [opTable], rfl, by
    simp only [encode, mask_i, packFields_and, Instr.fields, BitVec.and_zero]; rfl⟩

theorem step (gd : CtxIx) : Statement (.step gd) :=
  ⟨⟨"STEP", 0x3000_0000000000000000, 0xF0FF_FFFFFFFFFFFFFFFF⟩, by simp [opTable], rfl, by
    simp only [encode, mask_u, packFields_and, Instr.fields, BitVec.and_zero]; rfl⟩

theorem next32 (gd : CtxIx) : Statement (.next32 gd) :=
  ⟨⟨"NEXT32", 0x4000_0000000000000000, 0xF0FF_FFFFFFFFFFFFFFFF⟩, by simp [opTable], rfl, by
    simp only [encode, mask_u, packFields_and, Instr.fields, BitVec.and_zero]; rfl⟩

theorem next64 (gd : CtxIx) : Statement (.next64 gd) :=
  ⟨⟨"NEXT64", 0x5000_0000000000000000, 0xF0FF_FFFFFFFFFFFFFFFF⟩, by simp [opTable], rfl, by
    simp only [encode, mask_u, packFields_and, Instr.fields, BitVec.and_zero]; rfl⟩

theorem skip (gd : CtxIx) (n : Word) : Statement (.skip gd n) :=
  ⟨⟨"SKIP", 0x6000_0000000000000000, 0xF0FF_0000000000000000⟩, by simp [opTable], rfl, by
    simp only [encode, mask_i, packFields_and, Instr.fields, BitVec.and_zero]; rfl⟩

theorem newstream (gd gs : CtxIx) : Statement (.newstream gd gs) :=
  ⟨⟨"NEWSTREAM", 0x7000_0000000000000000, 0xF00F_FFFFFFFFFFFFFFFF⟩, by simp [opTable], rfl, by
    simp only [encode, mask_r, packFields_and, Instr.fields, BitVec.and_zero]; rfl⟩

theorem clone (gd gs : CtxIx) : Statement (.clone gd gs) :=
  ⟨⟨"CLONE", 0x8000_0000000000000000, 0xF00F_FFFFFFFFFFFFFFFF⟩, by simp [opTable], rfl, by
    simp only [encode, mask_r, packFields_and, Instr.fields, BitVec.and_zero]; rfl⟩

theorem rdstate (gd : CtxIx) : Statement (.rdstate gd) :=
  ⟨⟨"RDSTATE", 0x9000_0000000000000000, 0xF0FF_FFFFFFFFFFFFFFFF⟩, by simp [opTable], rfl, by
    simp only [encode, mask_u, packFields_and, Instr.fields, BitVec.and_zero]; rfl⟩

end Sys2Proof.Laws.RowMatch
end

