-- ==== Sys2Proof/Tests/Slice0.lean ====
section
/-! SUPPORT. Tests: expected values are from the vectors of 95_test_vectors.md (named in each comment) and the rules' own
examples; and, for each obligation with hypotheses, a witness that meets them all, at the boundary of each clause. -/

namespace Sys2Proof.Tests

open Sys2Proof.Machine

/-- `s` with context `i` seeded with state `x`. -/
def seeded (i : CtxIx) (x : Word) (s : State) : State := (s.setG i x).setV i

/-- Reset state with one context seeded. -/
def one (i : CtxIx) (x : Word) : State := seeded i x State.reset

/-- Reset state of an engine with other parameters. -/
def resetWith (ngen : Nat) (hasSeedb : Bool) : State := { State.reset with params := ⟨ngen, hasSeedb⟩ }

/-- The last response of a next state. -/
def answer (o : Host.Outcome State Fault Refusal) : Option RspWord :=
  match o with
  | .next t => t.responses.getLast?
  | .fault _ => none
  | .refused _ => none

/-- The state of a context of a next state; none when unseeded. -/
def context (i : CtxIx) (o : Host.Outcome State Fault Refusal) : Option Word :=
  match o with
  | .next t => if t.getV i then some (t.getG i) else none
  | .fault _ => none
  | .refused _ => none

/-! ### Well-formedness: an ill-formed term for each check -/

theorem test_wf_accepts : (Instr.seedb 3 0).wellFormed Params.default = true := by decide
theorem test_wf_refuses_absent_seedb : (Instr.seedb 0 0).wellFormed ⟨4, false⟩ = false := by decide
theorem test_wf_refuses_destination_out_of_range : (Instr.clone 4 0).wellFormed Params.default = false := by decide
theorem test_wf_refuses_source_out_of_range : (Instr.newstream 0 4).wellFormed Params.default = false := by decide

/-! ### Decoding: a word of the spec for every constructor, and the refusals by name -/

/-- SD4. -/
theorem test_decode_seed64 : decode Params.default 0x1300_8000000000000000 = .ok (.seed64 3 0x8000000000000000) := by decide
/-- SD6. -/
theorem test_decode_seedb : decode Params.default 0x2100_0807060504030201 = .ok (.seedb 1 0x0807060504030201) := by decide
/-- ST5. -/
theorem test_decode_step : decode Params.default 0x3200_0000000000000000 = .ok (.step 2) := by decide
/-- ST9. -/
theorem test_decode_next32 : decode Params.default 0x4100_0000000000000000 = .ok (.next32 1) := by decide
/-- ST3. -/
theorem test_decode_next64 : decode Params.default 0x5000_0000000000000000 = .ok (.next64 0) := by decide
/-- SK8. -/
theorem test_decode_skip : decode Params.default 0x6000_FFFFFFFFFFFFFFFD = .ok (.skip 0 (-3)) := by decide
/-- ER11. -/
theorem test_decode_newstream : decode Params.default 0x7900_0000000000000000 = .ok (.newstream 9 0) := by decide
/-- ER8. -/
theorem test_decode_clone : decode Params.default 0x8150_0000000000000000 = .ok (.clone 1 5) := by decide
/-- NS2. -/
theorem test_decode_rdstate : decode Params.default 0x9100_0000000000000000 = .ok (.rdstate 1) := by decide
/-- ER1, ER2, ER3. -/
theorem test_decode_reserved :
    decode Params.default 0 = .error .reservedOp ∧
    decode Params.default 0xFFFF_FFFFFFFFFFFFFFFF = .error .reservedOp ∧
    decode Params.default 0xA000_0000000000000000 = .error .reservedOp := by decide
/-- ER4. -/
theorem test_decode_opd : decode Params.default 0x4000_0000000000000001 = .error .opdNotZero := by decide
/-- ER5. -/
theorem test_decode_gs : decode Params.default 0x4010_0000000000000000 = .error .gsNotZero := by decide
/-- ER6. -/
theorem test_decode_rsv : decode Params.default 0x1001_0000000000000005 = .error .rsvNotZero := by decide
/-- SD10. -/
theorem test_decode_seedb_absent : decode ⟨4, false⟩ 0x2000_0123456789ABCDEF = .error .seedbAbsent := by decide
/-- R57's example, encoded. -/
theorem test_encode_newstream : encode (.newstream 1 0) = 0x7100_0000000000000000 := by decide
/-- R33's rows at their own match words. -/
theorem test_table_word : decodeTableWord 80 0x60000000000000000000 = some (.skip 0 0) := by decide

/-! ### Functions -/

/-- UP5, UP6, UP8, UP9. -/
theorem test_update :
    update 0xFFFFFFFFFFFFFFFF = 0xEFFFFFFFFFFFFFFD ∧ update 0x0123456789ABCDEF = 0xF369D0369D0369CD ∧
    update 0x1AAAAAAAAAAAAAAB = 1 ∧ update 0x8000000000000000 = 0x8000000000000000 := by decide
/-- PM0 to PM7: every shift amount. -/
theorem test_permute_shifts :
    permute 0x0123456789ABCDEF = 0x8D158C12 ∧ permute 0x2123456789ABCDEF = 0x468BC609 ∧
    permute 0x4123456789ABCDEF = 0x23446304 ∧ permute 0x6123456789ABCDEF = 0x91A27182 ∧
    permute 0x8123456789ABCDEF = 0x48D1D8C1 ∧ permute 0xA123456789ABCDEF = 0x2468FC60 ∧
    permute 0xC123456789ABCDEF = 0x12346630 ∧ permute 0xE123456789ABCDEF = 0x091A3718 := by decide
/-- PM9, PM11, PM13, PM18. -/
theorem test_permute_corners :
    permute 0x0000000000200000 = 0 ∧ permute 0x0000100000000000 = 0x00400001 ∧
    permute 0x0040000000000000 = 0x00000400 ∧ permute 0xFFFFFFFFFFFFFFFF = 0xFFFFE000 := by decide
/-- X1: the source's byte seed. -/
theorem test_pack8 : pack8 #v[0xef, 0xcd, 0xab, 0x89, 0x67, 0x45, 0x23, 0x01] = 0x0123456789ABCDEF := by decide
/-- R52's table at small counts. -/
theorem test_netmul : netmul 0 = 1 ∧ netmul 10 = 0xE00000000000E6A9 ∧ netmul (-2) = 0x2E38E38E38E38E39 := by decide
/-- R54's trace for 5: the registers at the end. -/
theorem test_skip_sequencer :
    skipSeqRun 5 = { acc := 0x50000000000000F3, base := 0x80000000000019A1, cnt := 0 } := by decide
set_option maxRecDepth 4000 in
/-- R52's table at the sign boundary: `2^63 - 1`, `-2^63`, `2^62`. -/
theorem test_skip_sequencer_edges :
    (skipSeqRun 0x7FFFFFFFFFFFFFFF).acc = 0x1AAAAAAAAAAAAAAB ∧ (skipSeqRun 0x8000000000000000).acc = 1 ∧
    (skipSeqRun 0x4000000000000000).acc = 1 := by decide
/-- R76: 1 multiplication for `n = 0`; for -100, 7 significant bits, 3 of them 1. -/
theorem test_skip_count :
    (opCount (.skip 0 0)).mults = 1 ∧ opCount (.skip 0 (-100)) = { mults := 11, permutes := 0, iterations := 7 } := by
  decide

/-! ### Commands, by their words -/

/-- SD1. -/
theorem test_seed64_zero :
    context 0 (execWord 0x1000_0000000000000000 State.reset) = some 1 ∧
    answer (execWord 0x1000_0000000000000000 State.reset) = some 0x0_0000000000000000 := by decide
/-- ER7. -/
theorem test_seed64_out_of_range :
    answer (execWord 0x1400_0000000000000007 State.reset) = some 0x2_0000000000000000 := by decide
/-- SD7, SD8: byte 0 is least significant, byte 7 most. -/
theorem test_seedb :
    context 0 (execWord 0x2000_00000000000000FF State.reset) = some 0xFF ∧
    context 0 (execWord 0x2000_8000000000000000 State.reset) = some 0x8000000000000000 := by decide
/-- SD5, SD10. -/
theorem test_seedb_zero_and_absent :
    context 0 (execWord 0x2000_0000000000000000 State.reset) = some 1 ∧
    answer (execWord 0x2000_0123456789ABCDEF (resetWith 4 false)) = some 0x1_0000000000000000 := by decide
/-- ST5. -/
theorem test_step :
    context 2 (execWord 0x3200_0000000000000000 (one 2 1)) = some 0x1000000000000003 := by decide
/-- ST9: only the context named moves. -/
theorem test_next32 :
    context 1 (execWord 0x4100_0000000000000000 (one 1 0x0123456789ABCDEF)) = some 0xF369D0369D0369CD ∧
    context 0 (execWord 0x4100_0000000000000000 (one 1 0x0123456789ABCDEF)) = none ∧
    answer (execWord 0x4100_0000000000000000 (one 1 0x0123456789ABCDEF)) = some 0x0_000000009B4E9FD9 := by decide
/-- ST7: an output of 0 with status `OK`; ER9. -/
theorem test_next32_zero_and_unseeded :
    answer (execWord 0x4000_0000000000000000 (one 0 0x1AAAAAAAAAAAAAAB)) = some 0x0_0000000000000000 ∧
    answer (execWord 0x4000_0000000000000000 State.reset) = some 0x3_0000000000000000 := by decide
/-- ST3. -/
theorem test_next64 :
    context 0 (execWord 0x5000_0000000000000000 (one 0 0x0123456789ABCDEF)) = some 0xAA3D70A3D70A3D67 ∧
    answer (execWord 0x5000_0000000000000000 (one 0 0x0123456789ABCDEF)) = some 0x0_9B4E9FD947AE4164 := by decide
/-- SK8: a negative count. -/
theorem test_skip_back :
    context 0 (execWord 0x6000_FFFFFFFFFFFFFFFD (one 0 0x0123456789ABCDEF)) = some 0x4C7C90CAF222CEBD := by decide
set_option maxRecDepth 4000 in
/-- SK10, ER13. -/
theorem test_skip_least_and_unseeded :
    context 0 (execWord 0x6000_8000000000000000 (one 0 0x0123456789ABCDEF)) = some 0x0123456789ABCDEF ∧
    answer (execWord 0x6000_0000000000000000 State.reset) = some 0x3_0000000000000000 := by decide
/-- NS1. -/
theorem test_newstream :
    context 0 (execWord 0x7100_0000000000000000 (one 0 0x0123456789ABCDEF)) = some 0xAA3D70A3D70A3D67 ∧
    context 1 (execWord 0x7100_0000000000000000 (one 0 0x0123456789ABCDEF)) = some 0x9B4E9FD947AE4164 ∧
    answer (execWord 0x7100_0000000000000000 (one 0 0x0123456789ABCDEF)) = some 0x0_0000000000000000 := by decide
/-- NS4: the child replaces its parent; ER11. -/
theorem test_newstream_self_and_order :
    context 1 (execWord 0x7110_0000000000000000 (one 1 0x11EBDF8BD70AC42C)) = some 0xAE1CEBA495B6DF48 ∧
    answer (execWord 0x7900_0000000000000000 State.reset) = some 0x2_0000000000000000 := by decide
/-- NS8. -/
theorem test_clone_overwrites :
    context 2 (execWord 0x8200_0000000000000000 (seeded 2 5 (one 0 0x0123456789ABCDEF))) =
      some 0x0123456789ABCDEF := by decide
/-- ER8, ER15. -/
theorem test_clone_out_of_range :
    answer (execWord 0x8150_0000000000000000 (one 0 3)) = some 0x2_0000000000000000 ∧
    answer (execWord 0x8100_0000000000000000 (seeded 0 3 (resetWith 1 true))) = some 0x2_0000000000000000 := by decide
/-- NS9. -/
theorem test_rdstate :
    answer (execWord 0x9000_0000000000000000 (one 0 0x9C28F5C28F5C289F)) = some 0x0_9C28F5C28F5C289F := by decide
/-- ER14. -/
theorem test_rdstate_unseeded :
    answer (execWord 0x9100_0000000000000000 (one 0 7)) = some 0x3_0000000000000000 := by decide
/-- ER16: with sixteen contexts no index is out of range. -/
theorem test_sixteen_contexts :
    context 15 (execWord 0x1F00_0000000000000009 (resetWith 16 true)) = some 9 := by decide
/-- ER12: `ILLEGAL_CMD` before `BAD_CONTEXT`. -/
theorem test_check_order :
    answer (execWord 0xF900_0000000000000000 State.reset) = some 0x1_0000000000000000 := by decide

/-! ### A step, reset, the host's software -/

/-- The word placed for the next step is the one it runs (SD2). -/
theorem test_step_runs_word_placed :
    context 0 (Sys2Proof.Machine.step (State.reset.withFetchWord 80 0x10000000000000000001)) = some 1 := by decide
/-- R70: a reset during `STEP g2` gives no response and leaves no context seeded. -/
theorem test_reset_event :
    context 2 (Sys2Proof.Machine.step { one 2 1 with input := [.reset (some 0x3200_0000000000000000)] }) = none ∧
    answer (Sys2Proof.Machine.step { one 2 1 with input := [.reset (some 0x3200_0000000000000000)] }) = none := by decide
/-- FL1: the bytes of three outputs. -/
theorem test_fill_bytes :
    fillBytes [0x0_000000009B4E9FD9, 0x0_0000000047AE4164, 0x0_000000005C2828B2] =
      [0xd9, 0x9f, 0x4e, 0x9b, 0x64, 0x41, 0xae, 0x47, 0xb2, 0x28, 0x28, 0x5c] := by decide
/-- FL2, FL3. -/
theorem test_fill_lengths :
    fillCommands 0 0 = some [] ∧ fillCommands 0 6 = none ∧
    fillCommands 0 12 = some [.next32 0, .next32 0, .next32 0] := by decide
/-- P1 line 1, with a comment. -/
theorem test_assemble_bytes :
    assemble "SEEDB   g0, [0xef,0xcd,0xab,0x89,0x67,0x45,0x23,0x01] ; X1".toList = some [0x2000_0123456789ABCDEF] := by
  decide
/-- P2 line 13 and P3 line 7. -/
theorem test_assemble_lines :
    assemble "SKIP    g0, -6\nNEWSTREAM g1, g1\n".toList =
      some [0x6000_FFFFFFFFFFFFFFFA, 0x7110_0000000000000000] := by decide
/-- R36: the last context, and one that does not exist; a count past `2^63 - 1` in decimal. -/
theorem test_assemble_bounds :
    assemble "RDSTATE g15".toList = some [0x9F00_0000000000000000] ∧ assemble "RDSTATE g16".toList = none ∧
    assemble "SKIP g0, 9223372036854775808".toList = none ∧
    assemble "SKIP g0, -9223372036854775808".toList = some [0x6000_8000000000000000] := by decide
/-- R36 written back: the line of `SKIP g0, -3`. -/
theorem test_command_text : commandText (.skip 0 (-3)) = "SKIP g0, -3".toList := by decide

/-! ### Witnesses: states and operands that meet the hypotheses of each obligation -/

theorem witness_DecodeOfEncode : (Instr.seedb 15 5).encodable Params.default = true := by decide
theorem witness_EncodeOfDecode : decode Params.default 0x4F00_0000000000000000 = .ok (.next32 15) := by decide
theorem witness_MatchMaskSelectsCommand :
    ∃ row ∈ opTable, (0x2100_0807060504030201 : CmdWord) &&& row.mask = row.bits ∧
      (row.mnemonic = "SEEDB" → Params.default.hasSeedb = true) :=
  ⟨⟨"SEEDB", 0x2000_0000000000000000, 0xF0FF_0000000000000000⟩, by decide, by decide, fun _ => rfl⟩
theorem witness_StepRunsDecodedCommand :
    (one 0 7).withFetchWord 80 0x90000000000000000000 =
      { one 0 7 with input := .command 0x9000_0000000000000000 :: [] } ∧
    decode (one 0 7).params 0x9000_0000000000000000 = .ok (.rdstate 0) ∧ State.reset.input = [] := by decide
theorem witness_IllegalWordAnsweredIllegalCmd :
    ({ State.reset with input := [.command 0x4010_0000000000000000] } : State).input =
      .command 0x4010_0000000000000000 :: [] ∧
    Illegal State.reset.params 0x4010_0000000000000000 := by decide
/-- Each of the four clauses of the order of checks, at its boundary index. -/
theorem witness_ChecksRunInOrder :
    Illegal State.reset.params 0xF900_0000000000000000 ∧
    (¬ Illegal State.reset.params 0x1400_0000000000000007 ∧ State.reset.params.ngen ≤ (4 : CtxIx).toNat) ∧
    (¬ Illegal State.reset.params 0x9300_0000000000000000 ∧ ¬ State.reset.params.ngen ≤ (3 : CtxIx).toNat ∧
      State.reset.getV 3 = false) ∧
    (¬ Illegal (one 3 7).params 0x9300_0000000000000000 ∧ ¬ (one 3 7).params.ngen ≤ (3 : CtxIx).toNat ∧
      (one 3 7).getV 3 = true) :=
  ⟨by decide, ⟨by decide, by decide⟩, ⟨by decide, by decide, by decide⟩, by decide, by decide, by decide⟩
theorem witness_BadContextAnswered :
    (Instr.clone 0 4).encodable State.reset.params = true ∧ (Instr.clone 0 4).inRange State.reset.params = false ∧
    (⟨16, true⟩ : Params).ngen = 16 := by decide
theorem witness_NotSeededAnswered :
    (Instr.newstream 0 3).wellFormed State.reset.params = true ∧ (3 : CtxIx) ∈ (Instr.newstream 0 3).reads ∧
    State.reset.getV 3 = false := by decide
/-- A command that is answered with an error. -/
theorem witness_ErrorsChangeNothing :
    Sys2Proof.Machine.step { State.reset with input := [.command 0x9000_0000000000000000] } =
      .next { State.reset with responses := [] ++ [0x3_0000000000000000#68] } ∧
    rspStatus 0x3_0000000000000000#68 ≠ 0 := ⟨rfl, by decide⟩
theorem witness_OneResponsePerCommand :
    ({ one 0 7 with input := [.command 0x9000_0000000000000000] } : State).input =
      .command 0x9000_0000000000000000 :: [] := rfl
theorem witness_CommandsRunInIssueOrder :
    ({ State.reset with input := [.command 0x1000_0000000000000005, .command 0x9000_0000000000000000, .reset none] } :
      State).input =
      [0x1000_0000000000000005, 0x9000_0000000000000000].map HostEvent.command ++ [.reset none] := rfl
theorem witness_SeedReplacesOnlyZero : seed 0 = seed 1 := by decide
theorem witness_PermuteSelectsBits : 31 < 32 := by decide
theorem witness_SkipSequencerComputesNetmul :
    (0xFFFFFFFFFFFFFFFF : Word) ≠ 0 ∧ (3 : CtxIx).toNat < (one 3 7).params.ngen ∧ (one 3 7).getV 3 = true := by decide
theorem witness_SeedSequencerComputesSeed : 8 ≤ 8 := by decide
theorem witness_ShortOrbitsReturn :
    61 ≤ 61 ∧ 2 ^ 61 ∣ (0x2000000000000000 : Word).toNat ∧ 2 ^ 62 ∣ (0xC000000000000000 : Word).toNat ∧
    2 ^ 63 ∣ (0x8000000000000000 : Word).toNat := by decide
/-- In range at the last context, out of range at the next; also the absent `SEEDB`. -/
theorem witness_Seed64SeedsContext :
    (3 : CtxIx).toNat < State.reset.params.ngen ∧ State.reset.params.ngen ≤ (4 : CtxIx).toNat := by decide
theorem witness_SeedbSeedsContext :
    State.reset.params.hasSeedb = true ∧ (3 : CtxIx).toNat < State.reset.params.ngen ∧
    State.reset.params.ngen ≤ (4 : CtxIx).toNat ∧ (resetWith 4 false).params.hasSeedb = false := by decide
/-- For the five commands on one context: completing, out of range, unseeded. -/
theorem witness_one_context_commands :
    ((3 : CtxIx).toNat < (one 3 7).params.ngen ∧ (one 3 7).getV 3 = true) ∧
    (one 3 7).params.ngen ≤ (4 : CtxIx).toNat ∧
    ((2 : CtxIx).toNat < (one 3 7).params.ngen ∧ (one 3 7).getV 2 = false) := by decide
theorem witness_StepAdvancesState : (3 : CtxIx).toNat < (one 3 7).params.ngen ∧ (one 3 7).getV 3 = true :=
  witness_one_context_commands.1
theorem witness_Next32ReturnsOutputOfUpdatedState :
    (3 : CtxIx).toNat < (one 3 7).params.ngen ∧ (one 3 7).getV 3 = true := witness_one_context_commands.1
theorem witness_Next64ReturnsTwoOutputs : (3 : CtxIx).toNat < (one 3 7).params.ngen ∧ (one 3 7).getV 3 = true :=
  witness_one_context_commands.1
theorem witness_SkipMultipliesByNetmul : (3 : CtxIx).toNat < (one 3 7).params.ngen ∧ (one 3 7).getV 3 = true :=
  witness_one_context_commands.1
theorem witness_RdstateReturnsState :
    (3 : CtxIx).toNat < (one 3 7).params.ngen ∧ (one 3 7).getV 3 = true ∧ (one 3 7).NonZeroSeeded := by decide
/-- For the two commands on two contexts: completing (distinct and equal), out of range either way, unseeded source. -/
theorem witness_NewstreamSeedsChild :
    ((2 : CtxIx).toNat < (one 3 7).params.ngen ∧ (3 : CtxIx).toNat < (one 3 7).params.ngen ∧
      (one 3 7).getV 3 = true ∧ (2 : CtxIx) ≠ 3) ∧
    (one 3 7).params.ngen ≤ (4 : CtxIx).toNat ∧
    ((3 : CtxIx).toNat < (one 3 7).params.ngen ∧ (2 : CtxIx).toNat < (one 3 7).params.ngen ∧
      (one 3 7).getV 2 = false) := by decide
theorem witness_CloneCopiesState :
    ((2 : CtxIx).toNat < (one 3 7).params.ngen ∧ (3 : CtxIx).toNat < (one 3 7).params.ngen ∧
      (one 3 7).getV 3 = true) ∧
    (one 3 7).params.ngen ≤ (4 : CtxIx).toNat ∧
    ((3 : CtxIx).toNat < (one 3 7).params.ngen ∧ (2 : CtxIx).toNat < (one 3 7).params.ngen ∧
      (one 3 7).getV 2 = false) := by decide
theorem witness_Next64IsTwoNext32 : (0 : CtxIx).toNat < (one 0 7).params.ngen ∧ (one 0 7).getV 0 = true := by decide
theorem witness_NewstreamIsNext64ThenSeed64 :
    (1 : CtxIx) ≠ 0 ∧ (1 : CtxIx).toNat < (one 0 7).params.ngen ∧ (0 : CtxIx).toNat < (one 0 7).params.ngen ∧
    (one 0 7).getV 0 = true := by decide
theorem witness_SkipEqualsSteps :
    2 ^ 63 - 1 < 2 ^ 63 ∧ (0 : CtxIx).toNat < (one 0 7).params.ngen ∧ (one 0 7).getV 0 = true := by decide
theorem witness_SkipsComposeAndInvert :
    (0 : CtxIx).toNat < (one 0 7).params.ngen ∧ (one 0 7).getV 0 = true := by decide
theorem witness_CloneTwinsAgree :
    (1 : CtxIx) ≠ 0 ∧ (1 : CtxIx).toNat < (one 0 7).params.ngen ∧ (0 : CtxIx).toNat < (one 0 7).params.ngen ∧
    (one 0 7).getV 0 = true ∧ (∀ i ∈ [Instr.next32 0, Instr.skip 0 5], i.names.length = 1) ∧
    ∃ t, exec (.clone 1 0) (one 0 7) = .next t :=
  ⟨by decide, by decide, by decide, by decide, by decide, _, rfl⟩
theorem witness_FillIsLittleEndianOutputs :
    4 ∣ 12 ∧ (0 : CtxIx).toNat < (one 0 7).params.ngen ∧ (one 0 7).getV 0 = true ∧ ¬ 4 ∣ 6 := by decide
/-- Two states that differ in a context `STEP g0` does not read, and the answered command. -/
theorem witness_ContextsAreIndependent :
    (∃ t, exec (.step 0) (one 0 7) = .next t) ∧ (2 : CtxIx) ∉ (Instr.step 0).writes ∧
    (one 0 7).params = (seeded 2 5 (one 0 7)).params ∧
    (∀ g ∈ (Instr.step 0).reads, (one 0 7).getG g = (seeded 2 5 (one 0 7)).getG g ∧
      (one 0 7).getV g = (seeded 2 5 (one 0 7)).getV g) ∧
    answer (exec (.step 0) (one 0 7)) = some 0 ∧ rspStatus 0 = 0 :=
  ⟨⟨_, rfl⟩, by decide, by decide, by decide, by decide, by decide⟩
theorem witness_FrameOfOtherState :
    (∃ t, exec (.skip 0 5) (one 0 7) = .next t) ∧ (∃ t, exec (.seedb 0 5) (one 0 7) = .next t) :=
  ⟨⟨_, rfl⟩, ⟨_, rfl⟩⟩
/-- A valid bit that is set, and an error that sets none. -/
theorem witness_ValidBitsAreOnlySet :
    (∃ t, exec (.clone 1 0) (one 0 7) = .next t ∧ t.responses = (one 0 7).responses ++ [0#68] ∧ t.getV 1 = true) ∧
    (∃ t, exec (.clone 1 2) (one 0 7) = .next t ∧
      t.responses = (one 0 7).responses ++ [0x3_0000000000000000#68] ∧ t.getV 1 = false) :=
  ⟨⟨_, rfl, by decide, by decide⟩, ⟨_, rfl, by decide, by decide⟩⟩
/-- A state with a seeded context and a command issued that meets the invariant, and its step. -/
theorem witness_StepKeepsInvariant :
    ((one 0 7).withFetchWord 80 0x30000000000000000000).Inv ∧
    ∃ t, Sys2Proof.Machine.step ((one 0 7).withFetchWord 80 0x30000000000000000000) = .next t :=
  ⟨⟨by decide, by decide, by decide, fun _ h => nomatch h⟩, _, rfl⟩
theorem witness_ResetMeetsInvariant : (⟨1, false⟩ : Params).Legal ∧ (⟨16, true⟩ : Params).Legal := by decide
/-- A run of one step from reset that seeds a context. -/
theorem witness_SeededStatesNeverZero :
    (⟨16, true⟩ : Params).Legal ∧
    ∃ t, core.run 1 { State.resetOf ⟨16, true⟩ (Vector.replicate 16 0) ⟨0, 0, 0⟩ ⟨0, 0⟩ with
      input := [.command 0x1F00_0000000000000000] } = .next t ∧ t.getV 15 = true :=
  ⟨by decide, _, rfl, by decide⟩
theorem witness_ResetClearsEveryValidBit :
    ({ one 0 7 with input := [.reset none, .command 0x9000_0000000000000000] } : State).input =
      .reset none :: [.command 0x9000_0000000000000000] := rfl
/-- Two states that differ in an unseeded context and in a hidden register and look alike. -/
theorem witness_UnspecifiedContentsNeverShow :
    (State.reset).LooksLike ((State.reset.setG 2 5).setSkipSeq ⟨1, 2, 3⟩) ∧
    State.reset ≠ (State.reset.setG 2 5).setSkipSeq ⟨1, 2, 3⟩ :=
  ⟨⟨rfl, rfl, by decide, rfl, rfl⟩, by decide⟩

end Sys2Proof.Tests
end

section
/-! PROOFS. Which contexts a command changes and what its results depend on (10_state.md R17), and that no seeded context
ever holds zero (R12). -/

namespace Sys2Proof.Machine

/-! ### What a step and a run can do -/

/-- Everything a step can do: nothing is issued, a reset is applied, an illegal word is answered, or a decoded command
runs. -/
theorem step_cases {s t : State} (h : step s = .next t) :
    (s.input = [] ∧ t = s) ∨
    (∃ o rest, s.input = .reset o :: rest ∧ t = ({ s with input := rest } : State).applyReset) ∨
    (∃ w rest e, s.input = .command w :: rest ∧ decode s.params w = .error e ∧
      t = ({ s with input := rest } : State).respond .illegalCmd 0) ∨
    (∃ w rest i, s.input = .command w :: rest ∧ decode s.params w = .ok i ∧
      exec i { s with input := rest } = .next t) := by
  match hin : s.input with
  | [] =>
    rw [step_nil hin] at h
    cases h
    exact .inl ⟨rfl, rfl⟩
  | .reset o :: rest =>
    rw [step_reset hin] at h
    cases h
    exact .inr (.inl ⟨o, rest, rfl, rfl⟩)
  | .command w :: rest =>
    rw [step_command hin] at h
    unfold execWord at h
    split at h
    next e hd =>
      cases h
      exact .inr (.inr (.inl ⟨w, rest, e, rfl, hd, rfl⟩))
    next i hd => exact .inr (.inr (.inr ⟨w, rest, i, rfl, hd, h⟩))

/-- A run of `n + 1` steps that answers a state is a step and then a run of `n`. -/
theorem run_succ_cases {M : Host.Core} {n : Nat} {s t : M.State} (h : M.run (n + 1) s = .next t) :
    ∃ s', M.step s = .next s' ∧ M.run n s' = .next t := by
  unfold Host.Core.run at h
  split at h
  next s' hs' => exact ⟨s', hs', h⟩
  all_goals cases h

/-- What every step keeps, every run keeps. -/
theorem run_keeps {P : State → Prop} (hstep : ∀ s t, P s → step s = .next t → P t)
    (n : Nat) {s t : State} (hs : P s) (h : core.run n s = .next t) : P t := by
  induction n generalizing s with
  | zero => cases h; exact hs
  | succ n ih =>
    obtain ⟨s', hs', hrun⟩ := run_succ_cases h
    exact ih (hstep s s' hs hs') hrun

/-! ### What a command writes, and from what (10_state.md R17) -/

/-- R10, R11: a context whose valid bit a command sets is one it writes. -/
theorem mem_writes_of_mem_seeds {i : Instr} {j : CtxIx} (h : j ∈ i.seeds) : j ∈ i.writes := by
  cases i <;> simp_all [Instr.seeds, Instr.writes]

theorem exec_frame_context {i : Instr} {s t : State} {j : CtxIx} (h : exec i s = .next t)
    (hj : j ∉ i.writes) : t.getG j = s.getG j ∧ t.getV j = s.getV j := by
  obtain ⟨st, -, rfl⟩ | ⟨-, rfl⟩ := exec_cases h
  · simp
  · have hseeds : j ∉ i.seeds := fun hmem => hj (mem_writes_of_mem_seeds hmem)
    simp [bodyOf_getG_of_notMem hj, bodyOf_getV, hseeds]

/-- A response `OK` comes from a command all of whose checks passed. -/
theorem exec_cases_of_ok {i : Instr} {s t : State} {r : RspWord} (h : exec i s = .next t)
    (hr : t.responses = s.responses ++ [r]) (hok : rspStatus r = 0) :
    checkOf i s = none ∧ t = (bodyOf i s).1.respond .ok (bodyOf i s).2 := by
  obtain ⟨st, hst, rfl⟩ | hdone := exec_cases h
  · have hword : responseWord st 0 = r := by simpa using hr
    have hcode : st.code = 0 := by rw [← rspStatus_responseWord st 0, hword, hok]
    rw [(Status.code_eq_zero st).mp hcode] at hst
    exact absurd hst (checkOf_ne_ok i s)
  · exact hdone

/-- Whether a command passes its checks depends on the parameters and the valid bits of the contexts it reads. -/
theorem checkOf_eq_none_congr {i : Instr} {s s' : State} (hp : s.params = s'.params)
    (hv : ∀ g ∈ i.reads, s.getV g = s'.getV g) (h : checkOf i s = none) : checkOf i s' = none := by
  obtain ⟨hwf, hseeded⟩ := checkOf_eq_none.mp h
  exact checkOf_eq_none.mpr ⟨hp ▸ hwf, fun g hg => hv g hg ▸ hseeded g hg⟩

/-- The data a command returns depends on the contexts it reads alone. -/
theorem bodyOf_snd_congr {i : Instr} {s s' : State} (h : ∀ g ∈ i.reads, s.getG g = s'.getG g) :
    (bodyOf i s).2 = (bodyOf i s').2 := by
  cases i <;> simp_all [bodyOf, Instr.reads]

/-- The values a command writes depend on the contexts it reads alone. -/
theorem bodyOf_getG_congr {i : Instr} {s s' : State} {j : CtxIx}
    (h : ∀ g ∈ i.reads, s.getG g = s'.getG g) (hj : j ∈ i.writes) :
    (bodyOf i s).1.getG j = (bodyOf i s').1.getG j := by
  cases i
  case newstream gd gs =>
    have hgs : s.getG gs = s'.getG gs := h gs (by simp [Instr.reads])
    obtain rfl | rfl : j = gs ∨ j = gd := by simpa [Instr.writes] using hj
    all_goals simp [bodyOf, State.getG_setG, hgs]
  all_goals simp_all [bodyOf, Instr.reads, Instr.writes]

/-- Settles O40: outside its writes a command is its frame; two runs that agree on the reads both pass the checks, and their
bodies return and write the same. -/
theorem contextsAreIndependent : Obligations.ContextsAreIndependent := by
  refine ⟨fun i s t j h hj => exec_frame_context h hj, ?_⟩
  intro i s t s' t' r hp hreads h h' hr hok
  obtain ⟨hcheck, rfl⟩ := exec_cases_of_ok h hr hok
  have hG : ∀ g ∈ i.reads, s.getG g = s'.getG g := fun g hg => (hreads g hg).1
  have hcheck' := checkOf_eq_none_congr hp (fun g hg => (hreads g hg).2) hcheck
  rw [exec_of_check_none hcheck'] at h'
  cases h'
  have hword : responseWord .ok (bodyOf i s).2 = r := by simpa using hr
  refine ⟨by simp [← hword, bodyOf_snd_congr hG], fun j hj => ⟨?_, fun hseed => ?_⟩⟩
  · simpa using bodyOf_getG_congr hG hj
  · simp [bodyOf_getV, hseed]

/-! ### The sequencers never make a zero (42_skip.md R54, 40_seeding.md R44) -/

theorem isUnit_MULT : IsUnit MULT := .of_mul_eq_one _ mult_mul_multInv

theorem isUnit_MULT_INV : IsUnit MULT_INV :=
  .of_mul_eq_one MULT (by rw [mul_comm, mult_mul_multInv])

/-- What the loop of R54 keeps: both factors are invertible modulo 2^64. -/
def SkipSeq.Units (r : SkipSeq) : Prop := IsUnit r.acc ∧ IsUnit r.base

theorem skipSeqInit_units (n : Word) : (skipSeqInit n).Units := by
  unfold skipSeqInit
  split
  · exact ⟨isUnit_one, isUnit_MULT_INV⟩
  · exact ⟨isUnit_one, isUnit_MULT⟩

theorem skipSeqIter_units {r : SkipSeq} (h : r.Units) : (skipSeqIter r).Units := by
  obtain ⟨hacc, hbase⟩ := h
  refine ⟨?_, hbase.mul hbase⟩
  unfold skipSeqIter
  dsimp only
  split
  · exact hacc.mul hbase
  · exact hacc

theorem skipSeqLoop_units (k : Nat) {r : SkipSeq} (h : r.Units) : (skipSeqLoop k r).Units := by
  induction k generalizing r with
  | zero => exact h
  | succ k ih =>
    unfold skipSeqLoop
    split
    · exact h
    · exact ih (skipSeqIter_units h)

/-- The multiplier the sequencer of R54 ends with is invertible. -/
theorem isUnit_skipSeqRun_acc (n : Word) : IsUnit (skipSeqRun n).acc :=
  (skipSeqLoop_units 64 (skipSeqInit_units n)).1

/-- R45: the update keeps zero alone at zero. -/
@[simp] theorem update_eq_zero_iff {x : Word} : update x = 0#64 ↔ x = 0#64 := by
  refine ⟨fun h => by_contra fun hx => update_ne_zero hx h, ?_⟩
  rintro rfl
  exact mul_zero MULT

/-- R12 at `SKIP`: a non-zero state skips to a non-zero state. -/
theorem mul_skipSeqRun_acc_ne_zero {x : Word} (hx : x ≠ 0) (n : Word) : x * (skipSeqRun n).acc ≠ 0 := by
  obtain ⟨v, hv⟩ := (isUnit_skipSeqRun_acc n).exists_right_inv
  exact mul_unit_ne_zero hx hv

/-- R44: the seeding sequencer replaces a zero by 1 at its end. -/
theorem seedSeqRun_sacc_ne_zero (opd : Word) : (seedSeqRun opd).sacc ≠ 0 := by
  unfold seedSeqRun seedSeqFinish
  split
  · exact (by decide : (1 : Word) ≠ 0)
  · assumption

/-! ### Seeded contexts never hold zero (10_state.md R12) -/

/-- A command that reads no zero writes none. -/
theorem bodyOf_getG_ne_zero {i : Instr} {s : State} {j : CtxIx}
    (hreads : ∀ g ∈ i.reads, s.getG g ≠ 0) (hj : j ∈ i.writes) : (bodyOf i s).1.getG j ≠ 0 := by
  cases i
  case seedb gd opd =>
    obtain rfl : j = gd := by simpa [Instr.writes] using hj
    simpa [bodyOf] using seedSeqRun_sacc_ne_zero opd
  case skip gd n =>
    obtain rfl : j = gd := by simpa [Instr.writes] using hj
    simpa [bodyOf] using mul_skipSeqRun_acc_ne_zero (hreads j (by simp [Instr.reads])) n
  case newstream gd gs =>
    have hgs : s.getG gs ≠ 0 := hreads gs (by simp [Instr.reads])
    obtain rfl | rfl : j = gs ∨ j = gd := by simpa [Instr.writes] using hj
    · simp only [bodyOf, State.setV_getG, State.getG_setG]
      split
      · exact seed_ne_zero _
      · simpa using hgs
    · simp [bodyOf]
  all_goals simp_all [bodyOf, Instr.reads, Instr.writes]

/-- The body of a command whose checks passed keeps seeded contexts non-zero: those it writes are made from seeded ones, the
others are as they were. -/
theorem bodyOf_keeps_nonZeroSeeded {i : Instr} {s : State} (hs : s.NonZeroSeeded)
    (hcheck : checkOf i s = none) : (bodyOf i s).1.NonZeroSeeded := by
  obtain ⟨-, hseeded⟩ := checkOf_eq_none.mp hcheck
  intro j hj
  by_cases hw : j ∈ i.writes
  · exact bodyOf_getG_ne_zero (fun g hg => hs g (hseeded g hg)) hw
  · have hseeds : j ∉ i.seeds := fun hmem => hw (mem_writes_of_mem_seeds hmem)
    rw [bodyOf_getG_of_notMem hw]
    exact hs j (by simpa [bodyOf_getV, hseeds] using hj)

theorem respond_nonZeroSeeded {s : State} (hs : s.NonZeroSeeded) (st : Status) (d : Word) :
    (s.respond st d).NonZeroSeeded := by
  intro j hj
  simpa using hs j (by simpa using hj)

theorem exec_keeps_nonZeroSeeded {i : Instr} {s t : State} (hs : s.NonZeroSeeded)
    (h : exec i s = .next t) : t.NonZeroSeeded := by
  obtain ⟨st, -, rfl⟩ | ⟨hcheck, rfl⟩ := exec_cases h
  · exact respond_nonZeroSeeded hs st 0
  · exact respond_nonZeroSeeded (bodyOf_keeps_nonZeroSeeded hs hcheck) .ok _

theorem step_keeps_nonZeroSeeded (s t : State) (hs : s.NonZeroSeeded) (h : step s = .next t) :
    t.NonZeroSeeded := by
  obtain ⟨-, rfl⟩ | ⟨o, rest, -, rfl⟩ | ⟨w, rest, e, -, -, rfl⟩ | ⟨w, rest, i, -, -, hexec⟩ := step_cases h
  · exact hs
  · intro j hj
    simp at hj
  · exact respond_nonZeroSeeded (s := { s with input := rest }) hs .illegalCmd 0
  · exact exec_keeps_nonZeroSeeded (s := { s with input := rest }) hs hexec

/-- After reset no context is seeded, whatever the host has issued. -/
theorem resetOf_nonZeroSeeded (p : Params) (g : Vector Word 16) (a : SkipSeq) (b : SeedSeq)
    (events : List HostEvent) : ({ State.resetOf p g a b with input := events } : State).NonZeroSeeded := by
  intro j hj
  have hunseeded : (State.resetOf p g a b).getV j = true := hj
  simp at hunseeded

/-- Settles O45: no context is seeded after reset, and every step keeps the seeded contexts non-zero. -/
theorem seededStatesNeverZero : Obligations.SeededStatesNeverZero := by
  intro p g a b events n t _ hrun
  exact run_keeps step_keeps_nonZeroSeeded n (resetOf_nonZeroSeeded p g a b events) hrun

end Sys2Proof.Machine
end

section
/-! PROOFS. What the decoder accepts and refuses (30_encoding.md R33, R34), how a command word is checked and answered
(R31, R35), and the bytes of a `FILL` (R37). -/

namespace Sys2Proof

open Sys2Proof.Laws

/-! ### The decoder's two directions (30_encoding.md R33, R34) -/

theorem decodeFields_reserved {p : Params} {f : Fields} (h : f.op = 0x0 ∨ 0xA ≤ f.op) :
    decodeFields p f = .error .reservedOp := by
  obtain ⟨op, gd, gs, rsv, opd⟩ := f
  have hne := reserved_opcode h
  unfold decodeFields
  split
  case h_10 => rfl
  all_goals simp_all

/-- R33, R36: the decoder reads a command from its own fields. -/
theorem decodeFields_fields {p : Params} {i : Instr} (h : i.encodable p = true) :
    decodeFields p i.fields = .ok i := by
  cases i
  case seedb gd opd => simp_all [decodeFields, Instr.fields, Instr.encodable, acceptI_ok]
  all_goals rfl

/-- R34: a command is read from no fields but its own, and only on an engine that has it. -/
theorem fields_of_decodeFields {p : Params} {f : Fields} {i : Instr} (h : decodeFields p f = .ok i) :
    f = i.fields ∧ i.encodable p = true := by
  obtain ⟨op, gd, gs, rsv, opd⟩ := f
  unfold decodeFields at h
  split at h
  case h_1 hop | h_6 hop =>
    cases hop
    obtain ⟨rfl, rfl, rfl⟩ := acceptI_ok.mp h
    exact ⟨rfl, rfl⟩
  case h_2 hop =>
    cases hop
    split at h
    next hseedb =>
      obtain ⟨rfl, rfl, rfl⟩ := acceptI_ok.mp h
      exact ⟨rfl, hseedb⟩
    next => cases h
  case h_3 hop | h_4 hop | h_5 hop | h_9 hop =>
    cases hop
    obtain ⟨rfl, rfl, rfl, rfl⟩ := acceptU_ok.mp h
    exact ⟨rfl, rfl⟩
  case h_7 hop | h_8 hop =>
    cases hop
    obtain ⟨rfl, rfl, rfl⟩ := acceptR_ok.mp h
    exact ⟨rfl, rfl⟩
  case h_10 => cases h

/-- R33, R34: a word decodes to a command exactly when its fields are the command's and the engine has the command. -/
theorem decode_eq_ok_iff {p : Params} {w : CmdWord} {i : Instr} :
    decode p w = .ok i ↔ fieldsOf w = i.fields ∧ i.encodable p = true :=
  ⟨fields_of_decodeFields, fun ⟨hf, hi⟩ => by rw [decode, hf, decodeFields_fields hi]⟩

theorem encode_of_decode {p : Params} {w : CmdWord} {i : Instr} (h : decode p w = .ok i) : encode i = w :=
  fieldsOf_inj (by rw [fieldsOf_encode, (decode_eq_ok_iff.mp h).1])

/-- R34 on a word's fields: the decoder refuses exactly the illegal ones. -/
theorem decodeFields_error_iff (p : Params) (f : Fields) :
    (∃ e, decodeFields p f = .error e) ↔ IllegalFields p f.op f.gs f.rsv f.opd := by
  obtain hcommand | hreserved := opcode_cases f.op
  · obtain ⟨op, gd, gs, rsv, opd⟩ := f
    obtain rfl | rfl | rfl | rfl | rfl | rfl | rfl | rfl | rfl := hcommand
    case inr.inl =>
      cases hseedb : p.hasSeedb <;> simp [decodeFields, IllegalFields, formatOf, hseedb, acceptI_error]
    all_goals simp [decodeFields, IllegalFields, formatOf, acceptI_error, acceptU_error, acceptR_error]
  · exact iff_of_true ⟨_, decodeFields_reserved hreserved⟩ (.inl hreserved)

/-- R34: the decoder refuses a word exactly when it is illegal. -/
theorem decode_error_iff_illegal {p : Params} {w : CmdWord} :
    (∃ e, decode p w = .error e) ↔ Illegal p w :=
  decodeFields_error_iff p (fieldsOf w)

theorem decode_ok_of_not_illegal {p : Params} {w : CmdWord} (h : ¬ Illegal p w) : ∃ i, decode p w = .ok i := by
  cases hd : decode p w with
  | ok i => exact ⟨i, rfl⟩
  | error e => exact absurd (decode_error_iff_illegal.mp ⟨e, hd⟩) h

/-! ### The match and mask table (30_encoding.md R33) -/

/-- R33: a command's word matches the row of its mnemonic. -/
theorem encode_matches_row (i : Instr) : RowMatch.Statement i := by
  cases i with
  | seed64 gd imm => exact RowMatch.seed64 gd imm
  | seedb gd opd => exact RowMatch.seedb gd opd
  | step gd => exact RowMatch.step gd
  | next32 gd => exact RowMatch.next32 gd
  | next64 gd => exact RowMatch.next64 gd
  | skip gd n => exact RowMatch.skip gd n
  | newstream gd gs => exact RowMatch.newstream gd gs
  | clone gd gs => exact RowMatch.clone gd gs
  | rdstate gd => exact RowMatch.rdstate gd

/-- The fields of a word under a mask (R30, R33). -/
theorem fieldsOf_and (w m : CmdWord) :
    fieldsOf (w &&& m) =
      { op := (fieldsOf w).op &&& (fieldsOf m).op, gd := (fieldsOf w).gd &&& (fieldsOf m).gd,
        gs := (fieldsOf w).gs &&& (fieldsOf m).gs, rsv := (fieldsOf w).rsv &&& (fieldsOf m).rsv,
        opd := (fieldsOf w).opd &&& (fieldsOf m).opd } := by
  conv_lhs => rw [← packFields_fieldsOf w, ← packFields_fieldsOf m, packFields_and, fieldsOf_packFields]

/-- Every mask keeps the whole opcode (R33). -/
theorem op_of_matches {row : OpRow} {w : CmdWord} (hrow : row ∈ opTable) (h : w &&& row.mask = row.bits) :
    (fieldsOf w).op = (fieldsOf row.bits).op := by
  have hmask : ∀ r ∈ opTable, (fieldsOf r.mask).op = BitVec.allOnes 4 := by decide
  rw [← h, fieldsOf_and, hmask row hrow, BitVec.and_allOnes]

/-- The rows of the table have nine different opcodes (R33). -/
theorem row_eq_of_op_eq : ∀ r ∈ opTable, ∀ r' ∈ opTable,
    (fieldsOf r.bits).op = (fieldsOf r'.bits).op → r = r' := by decide

/-- R33: what a word that matches a row's constant has in each field, for a mask that keeps `op` and `rsv` whole. -/
theorem fieldsOf_of_matches {w : CmdWord} {op gsMask : BitVec 4} {opdMask : Word}
    (h : w &&& packFields ⟨0xF#4, 0#4, gsMask, 0xF#4, opdMask⟩ = packFields ⟨op, 0, 0, 0, 0⟩) :
    (fieldsOf w).op = op ∧ (fieldsOf w).gs &&& gsMask = 0 ∧ (fieldsOf w).rsv = 0 ∧
      (fieldsOf w).opd &&& opdMask = 0 := by
  have hf := congrArg fieldsOf h
  simp only [fieldsOf_and, fieldsOf_packFields, Fields.mk.injEq] at hf
  obtain ⟨hop, -, hgs, hrsv, hopd⟩ := hf
  have hkeep : ∀ x : BitVec 4, x &&& 0xF#4 = x := fun _ => BitVec.and_allOnes
  rw [hkeep] at hop hrsv
  exact ⟨hop, hgs, hrsv, hopd⟩

/-- R32, R33: the word of a row of format I has zero in `gs` and `rsv`. -/
theorem fieldsOf_of_match_i {w : CmdWord} {op : BitVec 4}
    (h : w &&& 0xF0FF_0000000000000000 = packFields ⟨op, 0, 0, 0, 0⟩) :
    fieldsOf w = ⟨op, (fieldsOf w).gd, 0, 0, (fieldsOf w).opd⟩ := by
  obtain ⟨hop, hgsMasked, hrsv, -⟩ := fieldsOf_of_matches (RowMatch.mask_i ▸ h)
  have hgs : (fieldsOf w).gs = 0 := BitVec.and_allOnes.symm.trans hgsMasked
  cases hw : fieldsOf w
  simp_all

/-- R32, R33: the word of a row of format U has zero in `gs`, `rsv` and `opd`. -/
theorem fieldsOf_of_match_u {w : CmdWord} {op : BitVec 4}
    (h : w &&& 0xF0FF_FFFFFFFFFFFFFFFF = packFields ⟨op, 0, 0, 0, 0⟩) :
    fieldsOf w = ⟨op, (fieldsOf w).gd, 0, 0, 0⟩ := by
  obtain ⟨hop, hgsMasked, hrsv, hopdMasked⟩ := fieldsOf_of_matches (RowMatch.mask_u ▸ h)
  have hgs : (fieldsOf w).gs = 0 := BitVec.and_allOnes.symm.trans hgsMasked
  have hopd : (fieldsOf w).opd = 0 := BitVec.and_allOnes.symm.trans hopdMasked
  cases hw : fieldsOf w
  simp_all

/-- R32, R33: the word of a row of format R has zero in `rsv` and `opd`. -/
theorem fieldsOf_of_match_r {w : CmdWord} {op : BitVec 4}
    (h : w &&& 0xF00F_FFFFFFFFFFFFFFFF = packFields ⟨op, 0, 0, 0, 0⟩) :
    fieldsOf w = ⟨op, (fieldsOf w).gd, (fieldsOf w).gs, 0, 0⟩ := by
  obtain ⟨hop, -, hrsv, hopdMasked⟩ := fieldsOf_of_matches (RowMatch.mask_r ▸ h)
  have hopd : (fieldsOf w).opd = 0 := BitVec.and_allOnes.symm.trans hopdMasked
  cases hw : fieldsOf w
  simp_all

/-- R33: a word that matches a row has the fields of a command with the row's mnemonic. -/
theorem fieldsOf_of_row {row : OpRow} {w : CmdWord} (hrow : row ∈ opTable) (h : w &&& row.mask = row.bits) :
    ∃ i : Instr, fieldsOf w = i.fields ∧ i.mnemonic = row.mnemonic := by
  simp only [opTable, List.mem_cons, List.not_mem_nil, or_false] at hrow
  obtain rfl | rfl | rfl | rfl | rfl | rfl | rfl | rfl | rfl := hrow
  · exact ⟨.seed64 _ _, fieldsOf_of_match_i h, rfl⟩
  · exact ⟨.seedb _ _, fieldsOf_of_match_i h, rfl⟩
  · exact ⟨.step _, fieldsOf_of_match_u h, rfl⟩
  · exact ⟨.next32 _, fieldsOf_of_match_u h, rfl⟩
  · exact ⟨.next64 _, fieldsOf_of_match_u h, rfl⟩
  · exact ⟨.skip _ _, fieldsOf_of_match_i h, rfl⟩
  · exact ⟨.newstream _ _, fieldsOf_of_match_r h, rfl⟩
  · exact ⟨.clone _ _, fieldsOf_of_match_r h, rfl⟩
  · exact ⟨.rdstate _, fieldsOf_of_match_u h, rfl⟩

/-- R33: only `SEEDB` asks anything of the engine. -/
theorem encodable_of_mnemonic {p : Params} {i : Instr} (h : i.mnemonic = "SEEDB" → p.hasSeedb = true) :
    i.encodable p = true := by
  cases i
  case seedb => exact h rfl
  all_goals rfl

/-- Settles O4: an accepted word is its command's one word, which matches the command's row; a word that matches a row has
the fields of a command of that row; and every mask keeps the opcode, in which all rows differ. -/
theorem matchMaskSelectsCommand : Obligations.MatchMaskSelectsCommand := by
  intro p w
  refine ⟨fun i hi => ?_, fun row hrow hmatch hseedb => ?_, fun row hrow row' hrow' hmatch hmatch' => ?_⟩
  · exact encode_of_decode hi ▸ encode_matches_row i
  · obtain ⟨i, hfields, hname⟩ := fieldsOf_of_row hrow hmatch
    exact ⟨i, decode_eq_ok_iff.mpr ⟨hfields, encodable_of_mnemonic (hname ▸ hseedb)⟩, hname⟩
  · have hop : (fieldsOf row.bits).op = (fieldsOf row'.bits).op :=
      (op_of_matches hrow hmatch).symm.trans (op_of_matches hrow' hmatch')
    exact row_eq_of_op_eq row hrow row' hrow' hop

end Sys2Proof

namespace Sys2Proof.Machine

/-! ### How a command word is checked and answered (30_encoding.md R31, R35) -/

/-- R34, R60: a step on an illegal word. -/
theorem step_of_illegal {s : State} {w : CmdWord} {rest : List HostEvent} (hin : s.input = .command w :: rest)
    (h : Illegal s.params w) : step s = .next (({ s with input := rest } : State).respond .illegalCmd 0) := by
  obtain ⟨e, he⟩ := decode_error_iff_illegal.mpr h
  simp [step_command hin, execWord, he, raiseError]

/-- R35: a step on a word that decodes runs its command. -/
theorem step_of_decode {s : State} {w : CmdWord} {rest : List HostEvent} {i : Instr}
    (hin : s.input = .command w :: rest) (h : decode s.params w = .ok i) :
    step s = exec i { s with input := rest } := by
  simp [step_command hin, execWord, h]

/-- R57, R58: either index out of range fails the checks of a two-context command. -/
theorem checkPair_of_outside {gd gs : CtxIx} {s : State}
    (h : gd.toNat < s.params.ngen → s.params.ngen ≤ gs.toNat) : checkPair gd gs s = some .badContext := by
  by_cases hgd : gd.toNat < s.params.ngen
  · simp [checkPair, hgd, h hgd]
  · simp [checkPair, Nat.not_lt.mp hgd]

/-- R61: a command the engine has whose indices are not all in range fails its index check, whatever is seeded. -/
theorem checkOf_of_not_inRange {i : Instr} {s : State} (henc : i.encodable s.params = true)
    (h : i.inRange s.params = false) : checkOf i s = some .badContext := by
  cases i
  case newstream gd gs | clone gd gs => exact checkPair_of_outside (by simpa [Instr.inRange, Instr.names] using h)
  all_goals
    simp_all [checkOf, checkTarget, checkContext, checkSeedb, Instr.encodable, Instr.inRange, Instr.names]

/-- R62: a command whose indices are in range and that reads an unseeded context fails its valid-bit check. -/
theorem checkOf_of_unseeded {i : Instr} {s : State} {g : CtxIx} (hwf : i.wellFormed s.params = true)
    (hg : g ∈ i.reads) (h : s.getV g = false) : checkOf i s = some .notSeeded := by
  cases i <;>
    simp_all [checkOf, checkContext, checkPair, Instr.wellFormed, Instr.encodable, Instr.inRange, Instr.names,
      Instr.reads]

/-- R35 step 3 on a word's fields: which words name a context that does not exist. -/
theorem inRange_eq_false_iff {i : Instr} {p : Params} :
    i.inRange p = false ↔
      p.ngen ≤ i.fields.gd.toNat ∨ ((i.fields.op = 0x7 ∨ i.fields.op = 0x8) ∧ p.ngen ≤ i.fields.gs.toNat) := by
  cases i <;> simp [Instr.inRange, Instr.names, Instr.fields, imp_iff_not_or]

/-- R35 step 4 on a word's fields: which words read an unseeded context. -/
theorem reads_unseeded_iff {i : Instr} {s : State} :
    (∃ g ∈ i.reads, s.getV g = false) ↔
      i.fields.op ≠ 0x1 ∧ i.fields.op ≠ 0x2 ∧
        s.getV (if i.fields.op = 0x7 ∨ i.fields.op = 0x8 then i.fields.gs else i.fields.gd) = false := by
  cases i <;> simp [Instr.reads, Instr.fields]

/-- Settles O8: the decoder refuses an illegal word; all zeros and all ones have reserved opcodes. -/
theorem illegalWordAnsweredIllegalCmd : Obligations.IllegalWordAnsweredIllegalCmd :=
  ⟨fun _ _ _ hin hillegal => step_of_illegal hin hillegal,
    fun _ => ⟨.inl (.inl (by decide)), .inl (.inr (by decide))⟩⟩

/-- Settles O9: an illegal word is refused by the decoder; the fields of a legal one are its command's, and say which of the
command's checks fails. -/
theorem checksRunInOrder : Obligations.ChecksRunInOrder := by
  intro s w rest hin s' op gd gs two src outside unseeded
  refine ⟨fun hillegal => step_of_illegal hin hillegal, ?_⟩
  rw [← imp_and, ← imp_and]
  intro hlegal
  obtain ⟨i, hi⟩ := decode_ok_of_not_illegal hlegal
  obtain ⟨hfields, henc⟩ := decode_eq_ok_iff.mp hi
  have hstep : step s = exec i s' := step_of_decode hin hi
  have houtside : i.inRange s'.params = false ↔ outside := by rw [inRange_eq_false_iff, ← hfields]; rfl
  have hunseeded : (∃ g ∈ i.reads, s'.getV g = false) ↔ unseeded := by rw [reads_unseeded_iff, ← hfields]; rfl
  rw [← houtside, ← hunseeded, Bool.not_eq_false]
  have hwf (hrange : i.inRange s'.params = true) : i.wellFormed s'.params = true :=
    Bool.and_eq_true_iff.mpr ⟨henc, hrange⟩
  refine ⟨fun hrange => ?_, fun hrange ⟨g, hg, hV⟩ => ?_, fun hrange hseeded => ?_⟩
  · have hfail : checkOf i s' = some .badContext := checkOf_of_not_inRange henc hrange
    rw [hstep, exec_of_check_some hfail]
    rfl
  · have hfail : checkOf i s' = some .notSeeded := checkOf_of_unseeded (hwf hrange) hg hV
    rw [hstep, exec_of_check_some hfail]
    rfl
  · have hpass : checkOf i s' = none := checkOf_eq_none.mpr ⟨hwf hrange, by simpa using hseeded⟩
    exact ⟨i, _, (bodyOf i s').2, hi, hstep, hstep.trans (exec_of_check_none hpass), by
      rw [State.respond_responses, bodyOf_responses]; rfl⟩

/-- R31: the response of an error is a legal one. -/
theorem legalResponse_error (st : Status) : LegalResponse (responseWord st 0) :=
  ⟨by rw [rspStatus_responseWord]; exact st.code_le, fun _ => rspData_responseWord st 0⟩

/-- R31: so is an `OK`, whatever its data. -/
theorem legalResponse_ok (d : Word) : LegalResponse (responseWord .ok d) :=
  ⟨by rw [rspStatus_responseWord]; exact Status.ok.code_le, fun h => absurd (rspStatus_responseWord .ok d) h⟩

/-- Settles O13: an illegal word and a failed check are answered by an error; a command whose checks pass answers the data of
its pseudocode. -/
theorem oneResponsePerCommand : Obligations.OneResponsePerCommand := by
  intro s w rest hin
  have herror {st : Status} (hne : st ≠ .ok) : rspStatus (responseWord st 0) ≠ 0 := by
    rwa [rspStatus_responseWord, ne_eq, Status.code_eq_zero]
  by_cases hlegal : Illegal s.params w
  · have ⟨hle, hdata⟩ := legalResponse_error .illegalCmd
    exact ⟨_, _, step_of_illegal hin hlegal, rfl, hle, hdata, fun h => absurd h (herror (by decide))⟩
  obtain ⟨i, hi⟩ := decode_ok_of_not_illegal hlegal
  cases hcheck : checkOf i { s with input := rest } with
  | some st =>
    have ⟨hle, hdata⟩ := legalResponse_error st
    have hne : st ≠ .ok := fun h => checkOf_ne_ok i _ (h ▸ hcheck)
    exact ⟨_, _, (step_of_decode hin hi).trans (exec_of_check_some hcheck), rfl, hle, hdata,
      fun h => absurd h (herror hne)⟩
  | none =>
    have ⟨hle, hdata⟩ := legalResponse_ok (bodyOf i { s with input := rest }).2
    refine ⟨_, _, (step_of_decode hin hi).trans (exec_of_check_none hcheck), ?_, hle, hdata, fun _ => ⟨i, hi, ?_⟩⟩
    · rw [State.respond_responses, bodyOf_responses]
    · rw [rspData_responseWord]
      cases i <;> rfl

/-! ### The bytes of a `FILL` (30_encoding.md R37, 20_memory.md R23) -/

/-- R23: an output's bytes are its number's base-256 digits, least significant first. -/
theorem outputBytes_eq (o : Output) :
    outputBytes o = [BitVec.ofNat 8 o.toNat, BitVec.ofNat 8 (o.toNat / 2 ^ 8), BitVec.ofNat 8 (o.toNat / 2 ^ 16),
      BitVec.ofNat 8 (o.toNat / 2 ^ 24)] := by
  simp only [outputBytes, BitVec.extractLsb', Nat.shiftRight_eq_div_pow, pow_zero, Nat.div_one]

/-- R48: the response of a `NEXT32` whose output is `o`. -/
def outputResponse (o : Output) : RspWord := responseWord .ok (o.setWidth 64)

/-- R48 of a context that exists and is seeded. -/
theorem exec_next32 {s : State} {gd : CtxIx} (hgd : gd.toNat < s.params.ngen) (hV : s.getV gd = true) :
    exec (.next32 gd) s = .next ((s.setG gd (update (s.getG gd))).respond .ok
      ((permute (update (s.getG gd))).setWidth 64)) :=
  exec_of_check_none (i := .next32 gd) (checkContext_eq_none.mpr ⟨hgd, hV⟩)

/-- R23: a fill takes the output back out of its response. -/
theorem fillBytes_map_outputResponse (os : List Output) :
    fillBytes (os.map outputResponse) = os.flatMap outputBytes := by
  simp [fillBytes, outputResponse, List.flatMap_map]

/-- R37, R48: `n` times `NEXT32` answers the outputs of the next `n` states, in order. -/
theorem execAll_replicate_next32 (n : Nat) {s : State} {gd : CtxIx} (hgd : gd.toNat < s.params.ngen)
    (hV : s.getV gd = true) :
    ∃ t, execAll (List.replicate n (.next32 gd)) s = .next t ∧
      t.responses = s.responses ++
        ((List.range n).map fun j => permute (update^[j + 1] (s.getG gd))).map outputResponse := by
  induction n generalizing s with
  | zero => exact ⟨s, rfl, by simp⟩
  | succ n ih =>
    obtain ⟨t, hrun, ht⟩ := ih (s := (s.setG gd (update (s.getG gd))).respond .ok
      ((permute (update (s.getG gd))).setWidth 64)) hgd (by simpa using hV)
    refine ⟨t, ?_, ?_⟩
    · simpa only [List.replicate_succ, execAll, exec_next32 hgd hV] using hrun
    · simp [ht, List.range_succ_eq_map, outputResponse]

/-- Settles O39: each `NEXT32` answers the next state's output, a fill takes it back out of the response, and its four bytes
are the little-endian ones. -/
theorem fillIsLittleEndianOutputs : Obligations.FillIsLittleEndianOutputs := by
  refine ⟨fun gd len s hlen hgd hV => ?_, fun gd len hlen => ?_⟩
  · obtain ⟨t, hrun, ht⟩ := execAll_replicate_next32 (len / 4) hgd hV
    have hbytes : fillBytes (t.responses.drop s.responses.length) =
        (List.range (len / 4)).flatMap fun j => outputBytes (permute (update^[j + 1] (s.getG gd))) := by
      rw [ht, List.drop_left, fillBytes_map_outputResponse, List.flatMap_map]
    refine ⟨t, ?_, hrun, ?_, ?_⟩
    · simp [fillCommands, Nat.mod_eq_zero_of_dvd hlen]
    · simp only [hbytes, outputBytes_eq]
    · simp [hbytes, outputBytes_eq, Nat.div_mul_cancel hlen]
  · simp [fillCommands, ← Nat.dvd_iff_mod_eq_zero, hlen]

end Sys2Proof.Machine
end

section
/-! PROOFS. Seeding: the zero-replacing seed (40_seeding.md R40, R74), the little-endian packing of byte seeds (R43), and the
commands `SEED64` and `SEEDB` (R41, R42). -/

namespace Sys2Proof.Machine

/-! ### The zero-replacing seed (40_seeding.md R40, R74) -/

theorem seed_zero : seed 0 = 1 := rfl

theorem seed_of_ne_zero {v : Word} (h : v ≠ 0) : seed v = v := if_neg h

/-- R74: two seeds give one generator only when they are equal or are 0 and 1. -/
theorem eq_or_le_one_of_seed_eq {v v' : Word} (h : seed v = seed v') :
    v = v' ∨ (v.toNat ≤ 1 ∧ v'.toNat ≤ 1) := by
  by_cases hv : v = 0 <;> by_cases hv' : v' = 0
  · exact .inl (hv.trans hv'.symm)
  · rw [hv, seed_zero, seed_of_ne_zero hv'] at h
    subst hv h
    exact .inr (by decide)
  · rw [hv', seed_zero, seed_of_ne_zero hv] at h
    subst hv' h
    exact .inr (by decide)
  · rw [seed_of_ne_zero hv, seed_of_ne_zero hv'] at h
    exact .inl h

/-- R41: `SEED64` uses its operand through `seed` alone. -/
theorem exec_seed64_congr (gd : CtxIx) {v v' : Word} (h : seed v = seed v') (s : State) :
    exec (.seed64 gd v) s = exec (.seed64 gd v') s := by
  simp only [exec, execSeed64, h]

/-- Settles O16: by cases on whether the operand is zero; `SEED64` sees its operand through `seed`, where 0 and 1 are one. -/
theorem seedReplacesOnlyZero : Obligations.SeedReplacesOnlyZero :=
  ⟨fun _ => rfl, fun v => ⟨seed_ne_zero v, seed_of_ne_zero (seed_ne_zero v)⟩, fun _ _ => eq_or_le_one_of_seed_eq,
    fun gd s => exec_seed64_congr gd rfl s⟩

/-! ### Packing bytes (40_seeding.md R43, 20_memory.md R21) -/

/-- Words that agree in every bit of every byte lane are equal. -/
theorem eq_of_lane_bits {x y : Word}
    (h : ∀ (i : Fin 8) (k : Nat), k < 8 → x.getLsbD (8 * i.val + k) = y.getLsbD (8 * i.val + k)) : x = y := by
  apply BitVec.eq_of_getLsbD_eq
  intro j hj
  have hlane := h ⟨j / 8, by omega⟩ (j % 8) (Nat.mod_lt _ (by decide))
  rwa [Nat.div_add_mod] at hlane

/-- The bits of a byte shifted to place `n`: its own in the lane at `n`. -/
theorem getLsbD_shiftedByte_lane (x : Byte) {n k : Nat} (h : n + k < 64) :
    (x.setWidth 64 <<< n).getLsbD (n + k) = x.getLsbD k := by
  simp [h]

/-- Zero outside the lane at `n`. -/
theorem getLsbD_shiftedByte_outside (x : Byte) {n j : Nat} (h : j < n ∨ n + 8 ≤ j) :
    (x.setWidth 64 <<< n).getLsbD j = false := by
  obtain hlow | hhigh := h
  · simp [hlow]
  · have hbit : x.getLsbD (j - n) = false := x.getLsbD_of_ge _ (by omega)
    simp [hbit]

/-- R43: lane `i` of the packed word is byte `i`. -/
theorem getLsbD_pack8 (b : Vector Byte 8) (i : Fin 8) {k : Nat} (hk : k < 8) :
    (pack8 b).getLsbD (8 * i.val + k) = b[i].getLsbD k := by
  fin_cases i <;>
    simp (disch := omega) only [pack8, BitVec.getLsbD_xor, getLsbD_shiftedByte_lane, getLsbD_shiftedByte_outside,
      Nat.reduceMul, Bool.false_bne, Bool.bne_false, Fin.getElem_fin]

/-- R43: a word whose lanes are the bytes is the packed word. -/
theorem pack8_eq_of_lanes {b : Vector Byte 8} {x : Word}
    (h : ∀ (i : Fin 8) (k : Nat), k < 8 → x.getLsbD (8 * i.val + k) = b[i].getLsbD k) : pack8 b = x :=
  eq_of_lane_bits fun i k hk => (getLsbD_pack8 b i hk).trans (h i k hk).symm

/-- R21: the lanes of eight bytes put side by side are the bytes. -/
theorem getLsbD_append_bytes (b : Vector Byte 8) (i : Fin 8) {k : Nat} (hk : k < 8) :
    (b[7] ++ b[6] ++ b[5] ++ b[4] ++ b[3] ++ b[2] ++ b[1] ++ b[0]).getLsbD (8 * i.val + k) = b[i].getLsbD k := by
  fin_cases i <;>
    simp (disch := omega) only [BitVec.getLsbD_append, if_neg, if_pos, Nat.reduceMul, Fin.getElem_fin] <;>
    congr 1 <;> omega

theorem pack8_eq_append (b : Vector Byte 8) :
    pack8 b = b[7] ++ b[6] ++ b[5] ++ b[4] ++ b[3] ++ b[2] ++ b[1] ++ b[0] :=
  pack8_eq_of_lanes fun i _ hk => getLsbD_append_bytes b i hk

theorem pack8_eq_or (b : Vector Byte 8) :
    pack8 b =
      b[0].setWidth 64 ||| b[1].setWidth 64 <<< 8 ||| b[2].setWidth 64 <<< 16 ||| b[3].setWidth 64 <<< 24 |||
      b[4].setWidth 64 <<< 32 ||| b[5].setWidth 64 <<< 40 ||| b[6].setWidth 64 <<< 48 ||| b[7].setWidth 64 <<< 56 := by
  rw [← BitVec.shiftLeft_zero (b[0].setWidth 64)]
  refine pack8_eq_of_lanes fun i k hk => ?_
  fin_cases i <;>
    simp (disch := omega) only [BitVec.getLsbD_or, getLsbD_shiftedByte_lane, getLsbD_shiftedByte_outside,
      Nat.reduceMul, Bool.false_or, Bool.or_false, Fin.getElem_fin]

/-- A word with a byte appended below it, as a number. -/
theorem toNat_append_byte {n : Nat} (x : BitVec n) (y : Byte) : (x ++ y).toNat = x.toNat * 2 ^ 8 + y.toNat := by
  rw [BitVec.toNat_append, ← Nat.shiftLeft_add_eq_or_of_lt y.isLt, Nat.shiftLeft_eq]

theorem pack8_toNat (b : Vector Byte 8) :
    (pack8 b).toNat =
      b[0].toNat + b[1].toNat * 2 ^ 8 + b[2].toNat * 2 ^ 16 + b[3].toNat * 2 ^ 24 +
      b[4].toNat * 2 ^ 32 + b[5].toNat * 2 ^ 40 + b[6].toNat * 2 ^ 48 + b[7].toNat * 2 ^ 56 := by
  rw [pack8_eq_append]
  simp only [toNat_append_byte]
  omega

theorem pack8_byteLanes (opd : Word) : pack8 (byteLanes opd) = opd := by
  refine pack8_eq_of_lanes fun i k hk => ?_
  simp [byteLanes, byteLane, hk]

/-- Settles O17: the packed word is known by the bits of its lanes, and its number by appending byte after byte. -/
theorem packIsLittleEndian : Obligations.PackIsLittleEndian :=
  ⟨fun b => ⟨pack8_eq_append b, pack8_eq_or b, pack8_toNat b, fun i _ hk => getLsbD_pack8 b i hk⟩, pack8_byteLanes⟩

/-! ### The words of format I (30_encoding.md R30, R32) -/

/-- R35 step 1: a word written field by field is decoded by its fields. -/
theorem decode_append (p : Params) (op : BitVec 4) (gd gs : CtxIx) (rsv : BitVec 4) (opd : Word) :
    decode p (op ++ gd ++ gs ++ rsv ++ opd) = decodeFields p ⟨op, gd, gs, rsv, opd⟩ :=
  congrArg (decodeFields p) (fieldsOf_packFields ⟨op, gd, gs, rsv, opd⟩)

/-- R32: the legal word of a format I command. -/
theorem decode_formatI_ok {p : Params} {i : Instr} {op : BitVec 4} {gd gs : CtxIx} {rsv : BitVec 4} {opd : Word}
    (hfields : i.fields = ⟨op, gd, 0, 0, opd⟩) (henc : i.encodable p = true) (hgs : gs = 0) (hrsv : rsv = 0) :
    decode p (op ++ gd ++ gs ++ rsv ++ opd) = .ok i := by
  rw [decode_append, hgs, hrsv, ← hfields, decodeFields_fields henc]

/-- R32, R34: a format I word with `gs` or `rsv` not zero is refused. -/
theorem decode_formatI_error {p : Params} {op : BitVec 4} {gs rsv : BitVec 4} (hop : formatOf p op = some .i)
    (h : gs ≠ 0 ∨ rsv ≠ 0) (gd : CtxIx) (opd : Word) :
    ∃ e, decode p (op ++ gd ++ gs ++ rsv ++ opd) = .error e := by
  rw [decode_append, decodeFields_error_iff]
  obtain hgs | hrsv := h
  · exact .inr (.inr (.inr (.inl ⟨.inl hop, hgs⟩)))
  · exact .inr (.inr (.inl hrsv))

/-- R33, R34: without `HAS_SEEDB` every word of opcode 2 is refused. -/
theorem decode_seedb_absent {p : Params} (h : p.hasSeedb = false) (gd gs : CtxIx) (rsv : BitVec 4) (opd : Word) :
    ∃ e, decode p (0x2#4 ++ gd ++ gs ++ rsv ++ opd) = .error e := by
  rw [decode_append, decodeFields_error_iff]
  exact .inr (.inl ⟨rfl, h⟩)

/-! ### `SEED64` (40_seeding.md R41) -/

/-- Settles O25: the index check decides between R41's write and `BAD_CONTEXT`; the word is one of format I. -/
theorem seed64SeedsContext : Obligations.Seed64SeedsContext := by
  refine ⟨fun gd v s hgd => ?_, fun gd v s hgd => ?_, fun p gd gs rsv v => ⟨fun ⟨hgs, hrsv⟩ => ?_, fun h => ?_⟩⟩
  · exact exec_of_check_none (i := .seed64 gd v) (checkTarget_eq_none.mpr hgd)
  · exact exec_of_check_some (i := .seed64 gd v) (st := .badContext) (checkIndex_of_le hgd)
  · exact decode_formatI_ok rfl rfl hgs hrsv
  · exact decode_formatI_error rfl h gd v

/-! ### `SEEDB` and its sequencer (40_seeding.md R42, R44) -/

/-- R44: the eight iterations, unrolled, make the XOR of R43; `SIDX` ends at 8. -/
theorem seedSeqLoop_eight (opd : Word) : seedSeqLoop opd 8 seedSeqInit = ⟨pack8 (byteLanes opd), 8⟩ := by
  simp [seedSeqLoop, seedSeqIter, seedSeqInit, pack8, byteLanes]

/-- R44: the sequencer's last step is `seed`. -/
theorem seedSeqFinish_sacc (r : SeedSeq) : (seedSeqFinish r).sacc = seed r.sacc := by
  unfold seedSeqFinish seed
  split <;> rfl

/-- R44: the sequencer ends with the seed of the packed bytes. -/
theorem seedSeqRun_sacc (opd : Word) : (seedSeqRun opd).sacc = seed (pack8 (byteLanes opd)) := by
  rw [seedSeqRun, seedSeqFinish_sacc, seedSeqLoop_eight]

theorem checkSeedb_of_absent {gd : CtxIx} {s : State} (h : s.params.hasSeedb = false) :
    checkSeedb gd s = some .illegalCmd := by
  simp [checkSeedb, h]

/-- Settles O26: the sequencer computes the seed of the packed bytes; the checks for `HAS_SEEDB` and for the index decide
between R42's write and the two errors; the word is one of format I where the engine has the command. -/
theorem seedbSeedsContext : Obligations.SeedbSeedsContext := by
  refine ⟨fun gd opd s hseedb hgd => ⟨seedSeqRun opd, ?_⟩, fun gd opd s hseedb hgd => ?_, fun gd opd s hseedb => ?_,
    fun p gd gs rsv opd => ⟨fun ⟨hseedb, hgs, hrsv⟩ => ?_, fun h => ?_⟩⟩
  · rw [exec_of_check_none (i := .seedb gd opd) (checkSeedb_eq_none.mpr ⟨hseedb, hgd⟩), bodyOf, seedSeqRun_sacc]
    simp only [State.setSeedSeq, State.setG, State.setV, State.respond, responseWord, Status.code,
      BitVec.ofNat_eq_ofNat]
  · have hrange : (Instr.seedb gd opd).inRange s.params = false := by simpa [Instr.inRange, Instr.names] using hgd
    exact exec_of_check_some (st := .badContext) (checkOf_of_not_inRange hseedb hrange)
  · exact exec_of_check_some (i := .seedb gd opd) (st := .illegalCmd) (checkSeedb_of_absent hseedb)
  · exact decode_formatI_ok rfl hseedb hgs hrsv
  · cases hseedb : p.hasSeedb with
    | false => exact decode_seedb_absent hseedb gd gs rsv opd
    | true =>
      have hnonzero : gs ≠ 0 ∨ rsv ≠ 0 := h.resolve_left (by simp [hseedb])
      exact decode_formatI_error (by simp [formatOf, hseedb]) hnonzero gd opd

end Sys2Proof.Machine
end

section
/-! PROOFS. Step and output: the state update (41_step_output.md R45), the output permutation (R46), and the commands `STEP`,
`NEXT32` and `NEXT64` (R47, R48, R49). -/

namespace Sys2Proof.Machine

/-! ### The state update (41_step_output.md R45) -/

/-- R4: the multiplier has three one bits. -/
theorem MULT_eq_sum_twoPow : MULT = BitVec.twoPow 64 60 + 1 + BitVec.twoPow 64 1 := by decide

/-- R45: the update as the sum of its three shifts. -/
theorem update_eq_shifts (x : Word) : update x = (x <<< 60) + x + (x <<< 1) := by
  rw [update, MULT_eq_sum_twoPow, BitVec.shiftLeft_eq_mul_twoPow, BitVec.shiftLeft_eq_mul_twoPow]
  ring

/-- Trailing zero bits survive a product modulo 2^64. -/
theorem two_pow_dvd_toNat_mul {x : Word} {k : Nat} (h : 2 ^ k ∣ x.toNat) (c : Word) : 2 ^ k ∣ (c * x).toNat := by
  rw [BitVec.toNat_mul]
  obtain hk | hk := Nat.le_total k 64
  · exact (Nat.dvd_mod_iff (pow_dvd_pow 2 hk)).mpr (h.mul_left _)
  · have hx : x.toNat = 0 := Nat.eq_zero_of_dvd_of_lt h (x.isLt.trans_le (Nat.pow_le_pow_right (by decide) hk))
    simp [hx]

/-- R45: `MULT` and `MULT_INV` both keep trailing zero bits, so the update keeps exactly those there are. -/
theorem two_pow_dvd_update_iff (x : Word) (k : Nat) : 2 ^ k ∣ (update x).toNat ↔ 2 ^ k ∣ x.toNat := by
  refine ⟨fun h => ?_, fun h => two_pow_dvd_toNat_mul h MULT⟩
  rw [← multInv_mul_update x]
  exact two_pow_dvd_toNat_mul h MULT_INV

/-- Settles O18: `MULT` is a sum of three powers of two and a unit, whose inverse undoes the update. -/
theorem updateIsOddMultiplication : Obligations.UpdateIsOddMultiplication :=
  ⟨update_toNat, update_eq_shifts, fun x => ⟨multInv_mul_update x, update_multInv_mul x⟩,
    fun _ => update_eq_zero_iff, two_pow_dvd_update_iff, by decide⟩

/-! ### The output permutation (41_step_output.md R46) -/

/-- R46: the shift's variable part is the value of the top three bits. -/
theorem toNat_shiftRight_61 (x : Word) : (x >>> 61).toNat = x.toNat / 2 ^ 61 := by
  rw [BitVec.toNat_ushiftRight, Nat.shiftRight_eq_div_pow]

/-- Settles O19: a logical right shift moves bit `n + k` to bit `k`, and the low 32 bits are kept. -/
theorem permuteSelectsBits : Obligations.PermuteSelectsBits := by
  intro x k hk
  simp only [permute, toNat_shiftRight_61, BitVec.getLsbD_setWidth, BitVec.getLsbD_ushiftRight, hk, decide_true,
    Bool.true_and]

/-! ### Commands that read the one context they name (30_encoding.md R35 steps 3 and 4) -/

theorem checkContext_of_le {gd : CtxIx} {s : State} (h : s.params.ngen ≤ gd.toNat) :
    checkContext gd s = some .badContext := by
  simp [checkContext, h]

theorem checkContext_of_unseeded {gd : CtxIx} {s : State} (hgd : gd.toNat < s.params.ngen)
    (hV : s.getV gd = false) : checkContext gd s = some .notSeeded := by
  simp [checkContext, hgd, hV]

/-- R61, R62: the errors of a command whose checks are those of one context. -/
theorem contextErrors_of_checkOf {i : Instr} {gd : CtxIx} {s : State} (h : checkOf i s = checkContext gd s) :
    contextErrors i gd s :=
  ⟨fun hgd => exec_of_check_some (st := .badContext) (h.trans (checkContext_of_le hgd)),
    fun hgd hV => exec_of_check_some (st := .notSeeded) (h.trans (checkContext_of_unseeded hgd hV))⟩

/-! ### The words of format U (30_encoding.md R30, R32) -/

/-- R32, R34: the legal word of a format U command has its fields; any other with its opcode has a field that must be zero
and is not. -/
theorem formatUWords_of_fields {op : BitVec 4} {i : CtxIx → Instr} (hfields : ∀ gd, (i gd).fields = ⟨op, gd, 0, 0, 0⟩)
    (henc : ∀ p gd, (i gd).encodable p = true) (hop : ∀ p, formatOf p op = some .u) : formatUWords op i := by
  refine fun p gd gs rsv opd => ⟨?_, fun h => ?_⟩
  · rintro ⟨rfl, rfl, rfl⟩
    rw [decode_append, ← hfields, decodeFields_fields (henc p gd)]
  · rw [decode_append, decodeFields_error_iff]
    obtain hgs | hrsv | hopd := h
    · exact .inr (.inr (.inr (.inl ⟨.inr (hop p), hgs⟩)))
    · exact .inr (.inr (.inl hrsv))
    · exact .inr (.inr (.inr (.inr ⟨.inl (hop p), hopd⟩)))

/-! ### `STEP`, `NEXT32`, `NEXT64` (41_step_output.md R47, R48, R49) -/

/-- R47 of a context that exists and is seeded. -/
theorem exec_step {s : State} {gd : CtxIx} (hgd : gd.toNat < s.params.ngen) (hV : s.getV gd = true) :
    exec (.step gd) s = .next ((s.setG gd (update (s.getG gd))).respond .ok 0) :=
  exec_of_check_none (i := .step gd) (checkContext_eq_none.mpr ⟨hgd, hV⟩)

/-- R49 of a context that exists and is seeded. -/
theorem exec_next64 {s : State} {gd : CtxIx} (hgd : gd.toNat < s.params.ngen) (hV : s.getV gd = true) :
    exec (.next64 gd) s =
      .next ((s.setG gd (update (update (s.getG gd)))).respond .ok (output64 (s.getG gd))) :=
  exec_of_check_none (i := .next64 gd) (checkContext_eq_none.mpr ⟨hgd, hV⟩)

/-- R48: a zero-extended output is the output under 32 zero bits. -/
theorem setWidth_output (o : Output) : o.setWidth 64 = 0#32 ++ o :=
  BitVec.setWidth_eq_append (by decide)

/-- Settles O27: checks that pass lead to R47's write, checks that fail to the errors of a one-context command; the word is
one of format U. -/
theorem stepAdvancesState : Obligations.StepAdvancesState :=
  ⟨fun _ _ hgd hV => exec_step hgd hV, fun _ _ => contextErrors_of_checkOf rfl,
    formatUWords_of_fields (fun _ => rfl) (fun _ _ => rfl) (fun _ => rfl)⟩

/-- Settles O28: as for `STEP`, with the zero-extended output of the updated state as data. -/
theorem next32ReturnsOutputOfUpdatedState : Obligations.Next32ReturnsOutputOfUpdatedState := by
  refine ⟨fun gd s hgd hV => ?_, fun _ _ => contextErrors_of_checkOf rfl,
    formatUWords_of_fields (fun _ => rfl) (fun _ _ => rfl) (fun _ => rfl)⟩
  rw [exec_next32 hgd hV, setWidth_output]
  rfl

/-- Settles O29: as for `STEP`, with two updates and their two outputs, the first high, as data. -/
theorem next64ReturnsTwoOutputs : Obligations.Next64ReturnsTwoOutputs :=
  ⟨fun _ _ hgd hV => exec_next64 hgd hV, fun _ _ => contextErrors_of_checkOf rfl,
    formatUWords_of_fields (fun _ => rfl) (fun _ _ => rfl) (fun _ => rfl)⟩

end Sys2Proof.Machine
end

section
/-! PROOFS. Skipping: the laws of the net multiplier (42_skip.md R55), the sequencer that computes it (R54), the command `SKIP`
(R53), and a skip against single steps (R56). -/

namespace Sys2Proof.Machine

/-! ### The order of the multiplier (42_skip.md R55) -/

/-- Squaring `1 + 2^(j+3) * odd` doubles the power of two beside the odd factor; `MULT^2` starts it, with `j = 0`. -/
theorem MULT_pow_two_pow_succ (j : Nat) : ∃ u : Word, MULT ^ 2 ^ (j + 1) = 1 + 2 ^ (j + 3) * (2 * u + 1) := by
  induction j with
  | zero => exact ⟨0x600000000000000, by decide⟩
  | succ j ih =>
    obtain ⟨u, hu⟩ := ih
    refine ⟨u + 2 ^ (j + 1) * (2 * u + 1) ^ 2, ?_⟩
    rw [pow_succ 2 (j + 1), pow_mul, hu]
    ring

/-- R55: the 61st squaring of `MULT`. -/
theorem MULT_pow_two_pow_61 : MULT ^ 2 ^ 61 = 0x8000000000000001 := by
  obtain ⟨u, hu⟩ := MULT_pow_two_pow_succ 60
  have htwo63 : (2 : Word) ^ 63 = 0x8000000000000000 := by norm_num
  have htwo64 : (2 : Word) ^ 64 = 0 := by rw [pow_succ, htwo63]; decide
  calc MULT ^ 2 ^ 61 = 1 + 2 ^ 63 * (2 * u + 1) := hu
    _ = 1 + 2 ^ 63 + 2 ^ 64 * u := by ring
    _ = 0x8000000000000001 := by rw [htwo64, htwo63, zero_mul]; decide

theorem MULT_pow_two_pow_62 : MULT ^ 2 ^ 62 = 1 := by
  rw [pow_succ 2 61, pow_mul, MULT_pow_two_pow_61]
  decide

/-- R55: only 62 bits of an exponent matter. -/
theorem MULT_pow_mod (k : Nat) : MULT ^ (k % 2 ^ 62) = MULT ^ k :=
  (pow_eq_pow_mod k MULT_pow_two_pow_62).symm

/-- R55: so 64 bits are enough. -/
theorem MULT_pow_mod_two_pow_64 (k : Nat) : MULT ^ (k % 2 ^ 64) = MULT ^ k := by
  rw [← MULT_pow_mod, Nat.mod_mod_of_dvd k (pow_dvd_pow 2 (by decide)), MULT_pow_mod]

/-! ### The net multiplier (42_skip.md R52, R55) -/

/-- R52, R55: a negative count too multiplies by the power of `MULT` with its unsigned exponent, for `MULT^(2^64) = 1`. -/
theorem netmul_eq_pow (n : Word) : netmul n = MULT ^ n.toNat := by
  unfold netmul
  split
  · have hback : MULT_INV ^ (2 ^ 64 - n.toNat) * MULT ^ (2 ^ 64 - n.toNat) = 1 := by
      simpa only [powMul_eq_pow] using powMul_inv_mul (2 ^ 64 - n.toNat)
    have hround : MULT ^ (2 ^ 64 - n.toNat) * MULT ^ n.toNat = 1 := by
      rw [← pow_add, Nat.sub_add_cancel n.isLt.le, ← MULT_pow_mod_two_pow_64, Nat.mod_self, pow_zero]
    rw [powMul_eq_pow, left_inv_eq_right_inv hback hround]
  · exact powMul_eq_pow MULT n.toNat

@[simp] theorem netmul_zero : netmul 0 = 1 := rfl

theorem netmul_ofNat (k : Nat) : netmul (BitVec.ofNat 64 k) = MULT ^ k := by
  rw [netmul_eq_pow, BitVec.toNat_ofNat, MULT_pow_mod_two_pow_64]

theorem netmul_add (a b : Word) : netmul (a + b) = netmul a * netmul b := by
  rw [netmul_eq_pow, BitVec.toNat_add, MULT_pow_mod_two_pow_64, pow_add, netmul_eq_pow, netmul_eq_pow]

theorem netmul_mul_netmul_neg (a : Word) : netmul a * netmul (-a) = 1 := by
  rw [← netmul_add, add_neg_cancel, netmul_zero]

/-- R52 by the signed value of the count. -/
theorem netmul_eq_sval (n : Word) :
    netmul n = if 0 ≤ sval n then powMul MULT (sval n).natAbs else powMul MULT_INV (sval n).natAbs := by
  unfold netmul sval
  have hlt : n.toNat < 2 ^ 64 := n.isLt
  split
  · have hneg : ¬ 0 ≤ (n.toNat : Int) - 2 ^ 64 := by omega
    have habs : ((n.toNat : Int) - 2 ^ 64).natAbs = 2 ^ 64 - n.toNat := by omega
    rw [if_neg hneg, habs]
  · rw [if_pos (Int.natCast_nonneg _), Int.natAbs_natCast]

/-- Settles O20: the net multiplier is `MULT` to the unsigned count, so the laws are those of powers of an element whose
`2^62`-th power is 1. -/
theorem netMultiplierLaws : Obligations.NetMultiplierLaws := by
  refine ⟨netmul_mul_netmul_neg, fun a b => (netmul_add a b).symm, fun a => ?_, mult_mul_multInv, ?_, ?_⟩
  · rw [powMul_eq_pow, MULT_pow_mod, netmul_eq_pow]
  · rw [powMul_eq_pow, MULT_pow_two_pow_62]
  · rw [powMul_eq_pow, MULT_pow_two_pow_61]

/-! ### The sequencer (42_skip.md R54) -/

/-- What the loop of R54 keeps. -/
def SkipSeq.product (r : SkipSeq) : Word := r.acc * powMul r.base r.cnt.toNat

theorem product_of_cnt_eq_zero {r : SkipSeq} (h : r.cnt = 0) : r.product = r.acc := by
  simp [SkipSeq.product, h, powMul]

theorem skipSeqIter_cnt_toNat (r : SkipSeq) : (skipSeqIter r).cnt.toNat = r.cnt.toNat / 2 := by
  rw [skipSeqIter, BitVec.toNat_ushiftRight, Nat.shiftRight_eq_div_pow, pow_one]

/-- R54: `CNT = 2 * (CNT >> 1) + CNT[0]`, and a bit of 1 moves one `BASE` into `ACC`. -/
theorem skipSeqIter_product (r : SkipSeq) : (skipSeqIter r).product = r.product := by
  have hbit : r.cnt.getLsbD 0 = decide (r.cnt.toNat % 2 = 1) := Nat.testBit_zero _
  have hsplit : r.base ^ r.cnt.toNat = (r.base * r.base) ^ (r.cnt.toNat / 2) * r.base ^ (r.cnt.toNat % 2) := by
    rw [← pow_two, ← pow_mul, ← pow_add, Nat.div_add_mod]
  simp only [SkipSeq.product, skipSeqIter_cnt_toNat, powMul_eq_pow, hsplit]
  simp only [skipSeqIter, hbit, decide_eq_true_eq]
  split
  next hodd => rw [hodd, pow_one]; ring
  next heven => rw [Nat.mod_two_ne_one.mp heven, pow_zero, mul_one]

theorem skipSeqLoop_product (k : Nat) (r : SkipSeq) : (skipSeqLoop k r).product = r.product := by
  induction k generalizing r with
  | zero => rfl
  | succ k ih =>
    unfold skipSeqLoop
    split
    · rfl
    · rw [ih, skipSeqIter_product]

/-- R54: each round halves the count, so as many rounds as it has bits end the loop. -/
theorem skipSeqLoop_cnt {k : Nat} {r : SkipSeq} (h : r.cnt.toNat < 2 ^ k) : (skipSeqLoop k r).cnt = 0 := by
  induction k generalizing r with
  | zero => exact BitVec.eq_of_toNat_eq (by simpa [skipSeqLoop] using h)
  | succ k ih =>
    unfold skipSeqLoop
    split
    · assumption
    · apply ih
      rw [skipSeqIter_cnt_toNat]
      omega

/-- R54: at loop entry the product is the net multiplier. -/
theorem skipSeqInit_product (n : Word) : (skipSeqInit n).product = netmul n := by
  unfold skipSeqInit netmul
  split
  next hneg =>
    have hcnt : (~~~n + 1).toNat = 2 ^ 64 - n.toNat := by
      have hpos : 2 ^ 63 ≤ n.toNat := by simpa [BitVec.msb_eq_decide] using hneg
      have hnot : ~~~n + 1 = -n := (BitVec.neg_eq_not_add n).symm
      rw [hnot, BitVec.toNat_neg]
      omega
    rw [SkipSeq.product, hcnt, one_mul]
  next => exact one_mul _

/-- R54: the sequencer computes the net multiplier of R52. -/
theorem skipSeqRun_acc (n : Word) : (skipSeqRun n).acc = netmul n := by
  have hcnt : (skipSeqRun n).cnt = 0 := skipSeqLoop_cnt (skipSeqInit n).cnt.isLt
  rw [← product_of_cnt_eq_zero hcnt, skipSeqRun, skipSeqLoop_product, skipSeqInit_product]

/-! ### `SKIP` (42_skip.md R53) -/

/-- R53 of a context that exists and is seeded. -/
theorem exec_skip {s : State} {gd : CtxIx} (n : Word) (hgd : gd.toNat < s.params.ngen) (hV : s.getV gd = true) :
    exec (.skip gd n) s =
      .next (((s.setSkipSeq (skipSeqRun n)).setG gd (s.getG gd * netmul n)).respond .ok 0) := by
  rw [exec_of_check_none (i := .skip gd n) (checkContext_eq_none.mpr ⟨hgd, hV⟩), bodyOf, skipSeqRun_acc]

/-- Settles O30: the sequencer's `ACC` is the net multiplier; checks that fail lead to the errors of a one-context command;
the word is one of format I. -/
theorem skipMultipliesByNetmul : Obligations.SkipMultipliesByNetmul := by
  refine ⟨fun gd n s hgd hV => ⟨skipSeqRun n, exec_skip n hgd hV⟩, fun _ _ _ => contextErrors_of_checkOf rfl,
    fun p gd gs rsv n => ⟨fun ⟨hgs, hrsv⟩ => ?_, fun h => ?_⟩, netmul_eq_sval⟩
  · exact decode_formatI_ok rfl rfl hgs hrsv
  · exact decode_formatI_error rfl h gd n

/-! ### A skip against single steps (42_skip.md R56) -/

theorem update_iterate (k : Nat) (x : Word) : update^[k] x = MULT ^ k * x :=
  congrFun (mul_left_iterate MULT k) x

/-- R56: the net multiplier of a count of 0 or more is that many updates. -/
theorem mul_netmul_ofNat (k : Nat) (x : Word) : x * netmul (BitVec.ofNat 64 k) = update^[k] x := by
  rw [netmul_ofNat, update_iterate, mul_comm]

/-- A command that advances its context by one update, whatever it answers (R47, R48). -/
def AdvancesContext (i : Instr) (gd : CtxIx) : Prop :=
  ∀ s : State, gd.toNat < s.params.ngen → s.getV gd = true →
    ∃ d : Word, exec i s = .next ((s.setG gd (update (s.getG gd))).respond .ok d)

theorem step_advancesContext (gd : CtxIx) : AdvancesContext (.step gd) gd :=
  fun _ hgd hV => ⟨0, exec_step hgd hV⟩

theorem next32_advancesContext (gd : CtxIx) : AdvancesContext (.next32 gd) gd :=
  fun _ hgd hV => ⟨_, exec_next32 hgd hV⟩

/-- R56: `k` such commands advance the context by `k` updates and leave every other context and every valid bit. -/
theorem execAll_replicate_of_advancesContext {i : Instr} {gd : CtxIx} (hi : AdvancesContext i gd) (k : Nat) {s : State}
    (hgd : gd.toNat < s.params.ngen) (hV : s.getV gd = true) :
    ∃ t, execAll (List.replicate k i) s = .next t ∧ t.g = (s.setG gd (update^[k] (s.getG gd))).g ∧ t.v = s.v := by
  induction k generalizing s with
  | zero => exact ⟨s, rfl, by simp only [Function.iterate_zero, id_eq, State.setG_getG], rfl⟩
  | succ k ih =>
    obtain ⟨d, hd⟩ := hi s hgd hV
    obtain ⟨t, hrun, hg, hv⟩ := ih (s := (s.setG gd (update (s.getG gd))).respond .ok d) hgd (by simpa using hV)
    refine ⟨t, ?_, ?_, hv⟩
    · simpa only [List.replicate_succ, execAll, hd] using hrun
    · simpa using hg

/-- Settles O36: the skip, the steps and the outputs each leave the context at `k` updates, and one more output is that of the
next update. -/
theorem skipEqualsSteps : Obligations.SkipEqualsSteps := by
  intro gd k s _ hgd hV
  obtain ⟨u, hu, hug, huv⟩ := execAll_replicate_of_advancesContext (step_advancesContext gd) k hgd hV
  obtain ⟨o, ho, hog, hov⟩ := execAll_replicate_of_advancesContext (next32_advancesContext gd) k hgd hV
  obtain ⟨o', ho', hog', hov'⟩ := execAll_replicate_of_advancesContext (next32_advancesContext gd) (k + 1) hgd hV
  obtain ⟨o'', ho'', hresp⟩ := execAll_replicate_next32 (k + 1) hgd hV
  obtain rfl : o' = o'' := Host.Outcome.next.inj (ho'.symm.trans ho'')
  have hskip := exec_skip (BitVec.ofNat 64 k) hgd hV
  rw [mul_netmul_ofNat] at hskip
  refine ⟨_, u, o, _, o', hskip, hu, ho, exec_next32 hgd (by simpa using hV), ho', hug.symm, huv.symm, hog.symm, hov.symm,
    ?_, ?_, hov'.symm, ?_⟩
  · simp
  · simp [hog', Function.iterate_succ_apply']
  · simp [hresp, List.range_succ, Function.iterate_succ_apply', outputResponse]

end Sys2Proof.Machine
end

section
/-! PROOFS. The commands `NEWSTREAM`, `CLONE` and `RDSTATE` (43_stream_clone_read.md R57, R58, R59). -/

namespace Sys2Proof.Machine

/-! ### Commands that read `gs` and write `gd` (30_encoding.md R35 steps 3 and 4) -/

theorem checkPair_of_unseeded {gd gs : CtxIx} {s : State} (hgd : gd.toNat < s.params.ngen)
    (hgs : gs.toNat < s.params.ngen) (hV : s.getV gs = false) : checkPair gd gs s = some .notSeeded := by
  simp [checkPair, hgd, hgs, hV]

/-- R61, R62: the errors of a command whose checks are those of a source and a destination. -/
theorem pairErrors_of_checkOf {i : Instr} {gd gs : CtxIx} {s : State} (h : checkOf i s = checkPair gd gs s) :
    pairErrors i gd gs s := by
  refine ⟨fun hout => ?_, fun hgd hgs hV => ?_⟩
  · have houtside : gd.toNat < s.params.ngen → s.params.ngen ≤ gs.toNat :=
      fun hgd => hout.resolve_left (Nat.not_le.mpr hgd)
    exact exec_of_check_some (st := .badContext) (h.trans (checkPair_of_outside houtside))
  · exact exec_of_check_some (st := .notSeeded) (h.trans (checkPair_of_unseeded hgd hgs hV))

/-! ### The words of format R (30_encoding.md R30, R32) -/

/-- R32, R34: the legal word of a format R command has its fields; any other with its opcode has `rsv` or `opd` not zero. -/
theorem formatRWords_of_fields {op : BitVec 4} {i : CtxIx → CtxIx → Instr}
    (hfields : ∀ gd gs, (i gd gs).fields = ⟨op, gd, gs, 0, 0⟩) (henc : ∀ p gd gs, (i gd gs).encodable p = true)
    (hop : ∀ p, formatOf p op = some .r) : formatRWords op i := by
  refine fun p gd gs rsv opd => ⟨?_, fun h => ?_⟩
  · rintro ⟨rfl, rfl⟩
    rw [decode_append, ← hfields, decodeFields_fields (henc p gd gs)]
  · rw [decode_append, decodeFields_error_iff]
    obtain hrsv | hopd := h
    · exact .inr (.inr (.inl hrsv))
    · exact .inr (.inr (.inr (.inr ⟨.inr (hop p), hopd⟩)))

/-! ### `NEWSTREAM` (43_stream_clone_read.md R57) -/

/-- R57 of two contexts that exist and a parent that is seeded. -/
theorem exec_newstream {s : State} {gd gs : CtxIx} (hgd : gd.toNat < s.params.ngen) (hgs : gs.toNat < s.params.ngen)
    (hV : s.getV gs = true) :
    exec (.newstream gd gs) s =
      .next ((((s.setG gs (update (update (s.getG gs)))).setG gd (seed (output64 (s.getG gs)))).setV gd).respond .ok 0) :=
  exec_of_check_none (i := .newstream gd gs) (checkPair_eq_none.mpr ⟨hgd, hgs, hV⟩)

/-- Settles O31: checks that pass lead to R57's two writes, of which the child's is the later; the parent keeps its own where
it is another context. Checks that fail lead to the errors of a two-context command; the word is one of format R. -/
theorem newstreamSeedsChild : Obligations.NewstreamSeedsChild := by
  refine ⟨fun gd gs s hgd hgs hV => ⟨_, exec_newstream hgd hgs hV, rfl, ?child, fun hne => ?parent⟩,
    fun _ _ _ => pairErrors_of_checkOf rfl,
    formatRWords_of_fields (fun _ _ => rfl) (fun _ _ _ => rfl) (fun _ => rfl)⟩
  case child =>
    rw [State.respond_getG, State.setV_getG, State.getG_setG_self]
    rfl
  case parent =>
    rw [State.respond_getG, State.setV_getG, State.getG_setG_ne _ _ hne.symm, State.getG_setG_self]
    rfl

/-! ### `CLONE` (43_stream_clone_read.md R58) -/

/-- R58 of two contexts that exist and a source that is seeded. -/
theorem exec_clone {s : State} {gd gs : CtxIx} (hgd : gd.toNat < s.params.ngen) (hgs : gs.toNat < s.params.ngen)
    (hV : s.getV gs = true) :
    exec (.clone gd gs) s = .next (((s.setG gd (s.getG gs)).setV gd).respond .ok 0) :=
  exec_of_check_none (i := .clone gd gs) (checkPair_eq_none.mpr ⟨hgd, hgs, hV⟩)

/-- R77: a seeded context cloned to itself is written what it holds, and its valid bit is set already. -/
theorem exec_clone_self {s : State} {g : CtxIx} (hg : g.toNat < s.params.ngen) (hV : s.getV g = true) :
    exec (.clone g g) s = .next (s.respond .ok 0) := by
  rw [exec_clone hg hg hV, State.setG_getG, State.setV_of_getV s g hV]

/-- Settles O32: checks that pass lead to R58's write, which is none for `gd = gs`; checks that fail to the errors of a
two-context command; the word is one of format R. -/
theorem cloneCopiesState : Obligations.CloneCopiesState :=
  ⟨fun _ _ _ hgd hgs hV => exec_clone hgd hgs hV, fun _ _ hg hV => exec_clone_self hg hV,
    fun _ _ _ => pairErrors_of_checkOf rfl,
    formatRWords_of_fields (fun _ _ => rfl) (fun _ _ _ => rfl) (fun _ => rfl)⟩

/-! ### `RDSTATE` (43_stream_clone_read.md R59) -/

/-- R59 of a context that exists and is seeded. -/
theorem exec_rdstate {s : State} {gd : CtxIx} (hgd : gd.toNat < s.params.ngen) (hV : s.getV gd = true) :
    exec (.rdstate gd) s = .next (s.respond .ok (s.getG gd)) :=
  exec_of_check_none (i := .rdstate gd) (checkContext_eq_none.mpr ⟨hgd, hV⟩)

/-- Settles O33: checks that pass lead to R59's response, whose value R12 keeps from 0; checks that fail to the errors of a
one-context command; the word is one of format U. -/
theorem rdstateReturnsState : Obligations.RdstateReturnsState :=
  ⟨fun gd _ hgd hV => ⟨exec_rdstate hgd hV, fun hnonzero => hnonzero gd hV⟩, fun _ _ => contextErrors_of_checkOf rfl,
    formatUWords_of_fields (fun _ => rfl) (fun _ _ => rfl) (fun _ => rfl)⟩

end Sys2Proof.Machine
end

section
/-! PROOFS. The errors a command word raises (60_exceptions.md): `BAD_CONTEXT` (R61), `NOT_SEEDED` (R62), and that no error
leaves a trace but its response (R63). -/

namespace Sys2Proof.Machine

/-- R61: an engine with sixteen contexts has every one a command can name. -/
theorem inRange_of_ngen_eq_sixteen {p : Params} (h : p.ngen = 16) (i : Instr) : i.inRange p = true :=
  List.all_eq_true.mpr fun g _ => decide_eq_true (h ▸ g.isLt)

/-- Settles O10: an index out of range fails the index check, whatever the command; a 4-bit index is below 16. -/
theorem badContextAnswered : Obligations.BadContextAnswered :=
  ⟨fun _ _ henc hrange => exec_of_check_some (st := .badContext) (checkOf_of_not_inRange henc hrange),
    fun i _ hngen => inRange_of_ngen_eq_sixteen hngen i⟩

/-- Settles O11: an unseeded context that is read fails the valid-bit check, whatever the command. -/
theorem notSeededAnswered : Obligations.NotSeededAnswered :=
  ⟨fun _ _ _ hwf hreads hV => exec_of_check_some (st := .notSeeded) (checkOf_of_unseeded hwf hreads hV),
    fun _ _ => ⟨rfl, rfl⟩⟩

/-- R63: a step on a command word raises an error, which takes the word, answers it and does nothing else, or answers
`OK`. -/
theorem step_command_cases {s t : State} {w : CmdWord} {rest : List HostEvent} (hin : s.input = .command w :: rest)
    (h : step s = .next t) :
    (∃ st, st ≠ .ok ∧ t = ({ s with input := rest } : State).respond st 0) ∨
    (∃ d, t.responses = s.responses ++ [responseWord .ok d]) := by
  by_cases hlegal : Illegal s.params w
  · rw [step_of_illegal hin hlegal] at h
    cases h
    exact .inl ⟨.illegalCmd, by decide, rfl⟩
  · obtain ⟨i, hi⟩ := decode_ok_of_not_illegal hlegal
    rw [step_of_decode hin hi] at h
    obtain ⟨st, hst, rfl⟩ | ⟨-, rfl⟩ := exec_cases h
    · exact .inl ⟨st, fun hok => checkOf_ne_ok i _ (hok ▸ hst), rfl⟩
    · exact .inr ⟨_, by rw [State.respond_responses, bodyOf_responses]⟩

/-- Settles O12: a step on a command word whose response is not `OK` raised an error, which changes nothing and whose
response is a legal one. -/
theorem errorsChangeNothing : Obligations.ErrorsChangeNothing := by
  intro s t w rest r hin hstep hresp hne
  obtain ⟨st, -, rfl⟩ | ⟨d, hok⟩ := step_command_cases hin hstep
  · obtain rfl : responseWord st 0 = r := by simpa using hresp
    obtain ⟨hle, hdata⟩ := legalResponse_error st
    exact ⟨rfl, by bv_omega, hle, hdata hne⟩
  · obtain rfl : responseWord .ok d = r := by simpa [hok] using hresp
    exact absurd (rspStatus_responseWord .ok d) hne

end Sys2Proof.Machine
end

section
/-! PROOFS. The decoder against the encoder (30_encoding.md R33, R34), what every step answers, keeps and leaves alone
(10_state.md R11, R12, R13; 20_memory.md R26; 70_reset_and_hazards.md R70), and that what R15 and R18 leave unspecified never
shows to the host. -/

namespace Sys2Proof

/-! ### The decoder and the encoder (30_encoding.md R33, R34) -/

/-- R33, R36: the decoder reads a command from the command's word. -/
theorem decode_encode {p : Params} {i : Instr} (h : i.encodable p = true) : decode p (encode i) = .ok i :=
  decode_eq_ok_iff.mpr ⟨fieldsOf_encode i, h⟩

/-- Settles O2: the fields of a command's word are the command's own, from which the decoder reads it. -/
theorem decodeOfEncode : Obligations.DecodeOfEncode := fun _ _ => decode_encode

/-- Settles O3: a command is read from no fields but its own, and a word is known by its fields. -/
theorem encodeOfDecode : Obligations.EncodeOfDecode := fun _ _ _ h =>
  ⟨encode_of_decode h, (decode_eq_ok_iff.mp h).2⟩

/-- Settles O5: opcode by opcode, the decoder's tests are the cases of R34. -/
theorem decoderRefusesExactlyIllegal : Obligations.DecoderRefusesExactlyIllegal := fun _ _ =>
  decode_error_iff_illegal

/-- Settles O1: each of the nine words is the encoder's word of its command; opcode 0 is reserved. -/
theorem specWordsDecode : Obligations.SpecWordsDecode :=
  ⟨decodeFields_reserved (.inl rfl),
    decode_encode (i := .seed64 3 0x8000000000000000) rfl, decode_encode (i := .seedb 1 0x0807060504030201) rfl,
    decode_encode (i := .step 2) rfl, decode_encode (i := .next32 1) rfl, decode_encode (i := .next64 0) rfl,
    decode_encode (i := .skip 0 0xFFFFFFFFFFFFFFFD) rfl, decode_encode (i := .newstream 9 0) rfl,
    decode_encode (i := .clone 1 5) rfl, decode_encode (i := .rdstate 1) rfl⟩

end Sys2Proof

namespace Sys2Proof.Machine

/-! ### Every command and every step answers (30_encoding.md R31, R35) -/

theorem exec_next (i : Instr) (s : State) : ∃ t, exec i s = .next t := by
  rw [exec_eq]
  exact runCommand_next _ _ _

/-- R31: a command adds one response, a legal one, to those there are. -/
theorem exec_responses {i : Instr} {s t : State} (h : exec i s = .next t) :
    ∃ r, LegalResponse r ∧ t.responses = s.responses ++ [r] := by
  obtain ⟨st, -, rfl⟩ | ⟨-, rfl⟩ := exec_cases h
  · exact ⟨_, legalResponse_error st, rfl⟩
  · exact ⟨_, legalResponse_ok _, by rw [State.respond_responses, bodyOf_responses]⟩

theorem execWord_of_error {w : CmdWord} {s : State} {e : DecodeError} (h : decode s.params w = .error e) :
    execWord w s = .next (s.respond .illegalCmd 0) := by
  simp only [execWord, h, raiseError]

theorem execWord_of_ok {w : CmdWord} {s : State} {i : Instr} (h : decode s.params w = .ok i) :
    execWord w s = exec i s := by
  simp only [execWord, h]

/-- R31, R35: every command word is answered, by one response. -/
theorem execWord_next (w : CmdWord) (s : State) :
    ∃ t r, execWord w s = .next t ∧ t.responses = s.responses ++ [r] := by
  cases hd : decode s.params w with
  | error e => exact ⟨_, _, execWord_of_error hd, rfl⟩
  | ok i =>
    obtain ⟨t, ht⟩ := exec_next i s
    obtain ⟨r, -, hr⟩ := exec_responses ht
    exact ⟨t, r, (execWord_of_ok hd).trans ht, hr⟩

/-- 10_state.md R13: what a command word does, it does whatever the host has issued after it. -/
theorem execWord_withInput {w : CmdWord} {s t : State} (h : execWord w s = .next t) (inp : List HostEvent) :
    execWord w { s with input := inp } = .next { t with input := inp } := by
  cases hd : decode s.params w with
  | error e =>
    rw [execWord_of_error hd] at h
    cases h
    exact execWord_of_error (s := { s with input := inp }) hd
  | ok i =>
    rw [execWord_of_ok hd] at h
    exact (execWord_of_ok (s := { s with input := inp }) hd).trans (exec_withInput h inp)

/-- Settles O14: idle, a reset and a command word each answer a next state. -/
theorem stepNeverStops : Obligations.StepNeverStops := by
  intro s
  match hin : s.input with
  | [] => exact ⟨_, step_nil hin⟩
  | .reset o :: rest => exact ⟨_, step_reset hin⟩
  | .command w :: rest =>
    obtain ⟨t, -, ht, -⟩ := execWord_next w { s with input := rest }
    exact ⟨t, (step_command hin).trans ht⟩

/-- Settles O7: the head of the list is taken and executed; an empty list leaves the engine idle. -/
theorem stepRunsDecodedCommand : Obligations.StepRunsDecodedCommand :=
  ⟨fun _ _ _ _ hin hd => step_of_decode hin hd, fun _ => step_nil⟩

/-! ### Commands run in issue order (20_memory.md R26) -/

theorem run_succ_of_step {s s' : State} (h : step s = .next s') (n : Nat) : core.run (n + 1) s = core.run n s' := by
  have hcore : core.step s = .next s' := h
  simp only [Host.Core.run, hcore]

/-- R26: running over a list of issued words is executing them in order, with one response each. -/
theorem run_issued_words (ws : List CmdWord) (rest : List HostEvent) (s : State) :
    ∃ t, execWords ws s = .next t ∧
      core.run ws.length { s with input := ws.map HostEvent.command ++ rest } = .next { t with input := rest } ∧
      t.responses.length = s.responses.length + ws.length := by
  induction ws generalizing s with
  | nil => exact ⟨s, rfl, rfl, rfl⟩
  | cons w ws ih =>
    obtain ⟨s', r, hw, hr⟩ := execWord_next w s
    obtain ⟨t, hwords, hrun, hlen⟩ := ih s'
    have hstep : step { s with input := (w :: ws).map HostEvent.command ++ rest } =
        .next { s' with input := ws.map HostEvent.command ++ rest } :=
      (step_command rfl).trans (execWord_withInput hw _)
    refine ⟨t, ?_, (run_succ_of_step hstep ws.length).trans hrun, ?_⟩
    · simpa only [execWords, hw] using hwords
    · simp only [hlen, hr, List.length_append, List.length_cons, List.length_nil]
      omega

/-- Settles O15, by induction on the words issued: what the first one does, it does whatever stands after it. -/
theorem commandsRunInIssueOrder : Obligations.CommandsRunInIssueOrder := by
  intro ws rest s hin
  have hrun := run_issued_words ws rest s
  rwa [← hin] at hrun

/-! ### What a command leaves alone (10_state.md R11, R13, R14, R15) -/

theorem bodyOf_skipSeq {i : Instr} (h : ∀ gd n, i ≠ .skip gd n) (s : State) :
    (bodyOf i s).1.skipSeq = s.skipSeq := by
  cases i
  case skip gd n => exact absurd rfl (h gd n)
  all_goals rfl

theorem bodyOf_seedSeq {i : Instr} (h : ∀ gd x, i ≠ .seedb gd x) (s : State) :
    (bodyOf i s).1.seedSeq = s.seedSeq := by
  cases i
  case seedb gd x => exact absurd rfl (h gd x)
  all_goals rfl

theorem exec_samePort {i : Instr} {s t : State} (h : exec i s = .next t) : s.SamePort t := by
  obtain ⟨st, -, rfl⟩ | ⟨-, rfl⟩ := exec_cases h
  · exact ⟨rfl, rfl, rfl⟩
  · exact ⟨(bodyOf_params i s).symm, (bodyOf_input i s).symm, (bodyOf_fresh i s).symm⟩

/-- Settles O41: an error changes the responses alone; a command's body writes no register of the others. -/
theorem frameOfOtherState : Obligations.FrameOfOtherState := by
  intro i s t h
  obtain ⟨r, -, hr⟩ := exec_responses h
  refine ⟨exec_samePort h, ⟨r, hr⟩, fun hskip => ?_, fun hseedb => ?_⟩
  all_goals obtain ⟨st, -, rfl⟩ | ⟨-, rfl⟩ := exec_cases h
  · rfl
  · exact bodyOf_skipSeq hskip s
  · rfl
  · exact bodyOf_seedSeq hseedb s

/-- Settles O42: an error, whose status is not 0, sets no valid bit; a command answered `OK` sets those it seeds. -/
theorem validBitsAreOnlySet : Obligations.ValidBitsAreOnlySet := by
  intro i s t r j h hr
  obtain ⟨st, hst, rfl⟩ | ⟨-, rfl⟩ := exec_cases h
  · obtain rfl : responseWord st 0 = r := by simpa using hr
    have hne : st ≠ .ok := fun hok => checkOf_ne_ok i s (hok ▸ hst)
    have hcode : ¬ st.code = 0 := fun hzero => hne ((Status.code_eq_zero st).mp hzero)
    rw [State.respond_getV, rspStatus_responseWord, decide_eq_false hcode, Bool.false_and, Bool.or_false]
  · obtain rfl : responseWord .ok (bodyOf i s).2 = r := by simpa using hr
    rw [State.respond_getV, bodyOf_getV, rspStatus_responseWord, decide_eq_true ((Status.code_eq_zero _).mpr rfl),
      Bool.true_and, Bool.or_comm]

/-! ### The invariant (10_state.md R10, R12; 30_encoding.md R31) -/

theorem step_params {s t : State} (h : step s = .next t) : t.params = s.params := by
  obtain ⟨-, rfl⟩ | ⟨o, rest, -, rfl⟩ | ⟨w, rest, e, -, -, rfl⟩ | ⟨w, rest, i, -, -, hexec⟩ := step_cases h
  · rfl
  · rfl
  · rfl
  · exact (exec_samePort hexec).params.symm

theorem mem_names_of_mem_seeds {i : Instr} {j : CtxIx} (h : j ∈ i.seeds) : j ∈ i.names := by
  cases i <;> simp_all [Instr.seeds, Instr.names]

/-- R61: a command whose checks pass seeds only contexts that exist. -/
theorem lt_ngen_of_mem_seeds {i : Instr} {s : State} {j : CtxIx} (hcheck : checkOf i s = none)
    (hj : j ∈ i.seeds) : j.toNat < s.params.ngen := by
  obtain ⟨hwf, -⟩ := checkOf_eq_none.mp hcheck
  obtain ⟨-, hrange⟩ := Bool.and_eq_true_iff.mp hwf
  exact of_decide_eq_true (List.all_eq_true.mp hrange j (mem_names_of_mem_seeds hj))

theorem exec_keeps_onlyContextsSeeded {i : Instr} {s t : State} (hs : s.OnlyContextsSeeded)
    (h : exec i s = .next t) : t.OnlyContextsSeeded := by
  obtain ⟨st, -, rfl⟩ | ⟨hcheck, rfl⟩ := exec_cases h
  · exact hs
  · intro j hj
    rw [State.respond_params, bodyOf_params] at hj
    have hseeds : j ∉ i.seeds := fun hmem => Nat.not_lt.mpr hj (lt_ngen_of_mem_seeds hcheck hmem)
    rw [State.respond_getV, bodyOf_getV, decide_eq_false hseeds, Bool.false_or, hs j hj]

theorem step_keeps_onlyContextsSeeded {s t : State} (hs : s.OnlyContextsSeeded) (h : step s = .next t) :
    t.OnlyContextsSeeded := by
  obtain ⟨-, rfl⟩ | ⟨o, rest, -, rfl⟩ | ⟨w, rest, e, -, -, rfl⟩ | ⟨w, rest, i, -, -, hexec⟩ := step_cases h
  · exact hs
  · exact fun j _ => State.applyReset_getV _ j
  · exact hs
  · exact exec_keeps_onlyContextsSeeded (s := { s with input := rest }) hs hexec

theorem legalResponses_append {s t : State} {r : RspWord} (hs : s.LegalResponses) (hr : LegalResponse r)
    (ht : t.responses = s.responses ++ [r]) : t.LegalResponses := by
  intro r' hr'
  rw [ht, List.mem_append, List.mem_singleton] at hr'
  obtain hold | rfl := hr'
  · exact hs r' hold
  · exact hr

theorem step_keeps_legalResponses {s t : State} (hs : s.LegalResponses) (h : step s = .next t) :
    t.LegalResponses := by
  obtain ⟨-, rfl⟩ | ⟨o, rest, -, rfl⟩ | ⟨w, rest, e, -, -, rfl⟩ | ⟨w, rest, i, -, -, hexec⟩ := step_cases h
  · exact hs
  · exact hs
  · exact legalResponses_append hs (legalResponse_error .illegalCmd) rfl
  · obtain ⟨r, hlegal, hr⟩ := exec_responses hexec
    exact legalResponses_append hs hlegal hr

/-- Settles O43: each of the four parts is kept by idling, by a reset, by an illegal word and by a command. -/
theorem stepKeepsInvariant : Obligations.StepKeepsInvariant := by
  intro s t ⟨hlegal, hnonZero, hcontexts, hresponses⟩ h
  exact {
    legal := step_params h ▸ hlegal
    nonZero := step_keeps_nonZeroSeeded s t hnonZero h
    contexts := step_keeps_onlyContextsSeeded hcontexts h
    responses := step_keeps_legalResponses hresponses h }

theorem resetOf_inv {p : Params} (hp : p.Legal) (g : Vector Word 16) (a : SkipSeq) (b : SeedSeq) :
    (State.resetOf p g a b).Inv where
  legal := hp
  nonZero := resetOf_nonZeroSeeded p g a b []
  contexts := fun j _ => State.resetOf_getV p g a b j
  responses := fun _ hr => absurd hr List.not_mem_nil

/-- Settles O44: nothing is seeded and nothing answered after reset; the default parameters are legal. -/
theorem resetMeetsInvariant : Obligations.ResetMeetsInvariant :=
  ⟨resetOf_inv (by decide) _ _ _, fun _ g a b hp => resetOf_inv hp g a b⟩

/-- Settles O46: `State.applyReset` on the state less the event. -/
theorem resetClearsEveryValidBit : Obligations.ResetClearsEveryValidBit := fun _ _ _ hin =>
  ⟨_, step_reset hin, State.applyReset_getV _, rfl, rfl, rfl⟩

/-! ### What the host cannot see (10_state.md R15, R19) -/

theorem State.LooksLike.getV {s t : State} (h : s.LooksLike t) (j : CtxIx) : s.getV j = t.getV j := by
  rw [State.getV, State.getV, h.v]

theorem State.LooksLike.withInput {s t : State} (h : s.LooksLike t) (inp : List HostEvent) :
    ({ s with input := inp } : State).LooksLike { t with input := inp } :=
  ⟨h.params, h.v, h.g, rfl, h.responses⟩

theorem State.LooksLike.respond {s t : State} (h : s.LooksLike t) (st : Status) (d : Word) :
    (s.respond st d).LooksLike (t.respond st d) :=
  ⟨h.params, h.v, h.g, h.input, congrArg (· ++ [responseWord st d]) h.responses⟩

/-- R18, R70: after a reset no context is seeded, so none has to agree. -/
theorem State.LooksLike.applyReset {s t : State} (h : s.LooksLike t) : s.applyReset.LooksLike t.applyReset where
  params := by simp only [State.applyReset_params, h.params]
  v := by simp only [State.applyReset_v]
  g := fun j hj => by simp at hj
  input := by simp only [State.applyReset_input, h.input]
  responses := by simp only [State.applyReset_responses, h.responses]

/-- R19: a command whose checks pass reads seeded contexts alone, so its body leaves states that look alike. -/
theorem bodyOf_looksLike {i : Instr} {s t : State} (h : s.LooksLike t)
    (hreads : ∀ g ∈ i.reads, s.getG g = t.getG g) : (bodyOf i s).1.LooksLike (bodyOf i t).1 where
  params := by simp only [bodyOf_params, h.params]
  v := State.v_ext fun j => by simp only [bodyOf_getV, h.getV j]
  g := by
    intro j hj
    by_cases hw : j ∈ i.writes
    · exact bodyOf_getG_congr hreads hw
    · have hseeds : j ∉ i.seeds := fun hmem => hw (mem_writes_of_mem_seeds hmem)
      rw [bodyOf_getG_of_notMem hw, bodyOf_getG_of_notMem hw]
      exact h.g j (by simpa [bodyOf_getV, hseeds] using hj)
  input := by simp only [bodyOf_input, h.input]
  responses := by simp only [bodyOf_responses, h.responses]

theorem exec_looksLike (i : Instr) {s t : State} (h : s.LooksLike t) :
    ∃ s' t', exec i s = .next s' ∧ exec i t = .next t' ∧ s'.LooksLike t' := by
  have hcongr := checkOf_congr i h.params h.v
  cases hcheck : checkOf i s with
  | some st => exact ⟨_, _, exec_of_check_some hcheck, exec_of_check_some (hcongr ▸ hcheck), h.respond st 0⟩
  | none =>
    obtain ⟨-, hseeded⟩ := checkOf_eq_none.mp hcheck
    have hreads : ∀ g ∈ i.reads, s.getG g = t.getG g := fun g hg => h.g g (hseeded g hg)
    refine ⟨_, _, exec_of_check_none hcheck, exec_of_check_none (hcongr ▸ hcheck), ?_⟩
    rw [bodyOf_snd_congr hreads]
    exact (bodyOf_looksLike h hreads).respond .ok _

theorem execWord_looksLike (w : CmdWord) {s t : State} (h : s.LooksLike t) :
    ∃ s' t', execWord w s = .next s' ∧ execWord w t = .next t' ∧ s'.LooksLike t' := by
  cases hd : decode s.params w with
  | error e => exact ⟨_, _, execWord_of_error hd, execWord_of_error (h.params ▸ hd), h.respond .illegalCmd 0⟩
  | ok i =>
    rw [execWord_of_ok hd, execWord_of_ok (h.params ▸ hd)]
    exact exec_looksLike i h

theorem step_looksLike {s t : State} (h : s.LooksLike t) :
    ∃ s' t', step s = .next s' ∧ step t = .next t' ∧ s'.LooksLike t' := by
  match hin : s.input with
  | [] => exact ⟨s, t, step_nil hin, step_nil (h.input ▸ hin), h⟩
  | .reset o :: rest =>
    exact ⟨_, _, step_reset hin, step_reset (h.input ▸ hin), (h.withInput rest).applyReset⟩
  | .command w :: rest =>
    rw [step_command hin, step_command (h.input ▸ hin)]
    exact execWord_looksLike w (h.withInput rest)

/-- Settles O47, by induction on the steps: a command reads no context that is not seeded, and no hidden register. -/
theorem unspecifiedContentsNeverShow : Obligations.UnspecifiedContentsNeverShow := by
  intro n
  induction n with
  | zero => exact fun s t h => ⟨s, t, rfl, rfl, h⟩
  | succ n ih =>
    intro s t h
    obtain ⟨s', t', hs, ht, h'⟩ := step_looksLike h
    rw [run_succ_of_step hs, run_succ_of_step ht]
    exact ih s' t' h'

end Sys2Proof.Machine
end

section
/-! PROOFS. The assembler reads back the line R36 writes for each command (30_encoding.md R36). -/

namespace Sys2Proof.Machine

/-! ### The words of a line (30_encoding.md R36) -/

/-- The characters that stand in the mnemonics, contexts and numbers of R36's lines. -/
def wordChar (c : Char) : Bool := c.isAlphanum || c == '-'

/-- A mnemonic, a context or a number, as a line of R36 holds it. -/
structure IsWord (w : List Char) : Prop where
  ne_nil : w ≠ []
  chars  : ∀ c ∈ w, wordChar c = true

/-- What separates words, and the `;` of a comment, is in none. -/
theorem ne_separator_of_wordChar {c : Char} (h : wordChar c = true) :
    (c ≠ ' ' ∧ c ≠ '\t' ∧ c ≠ '\r') ∧ c ≠ ',' ∧ c ≠ '[' ∧ c ≠ ']' ∧ c ≠ ';' := by
  refine ⟨⟨?_, ?_, ?_⟩, ?_, ?_, ?_, ?_⟩ <;>
  · rintro rfl
    exact absurd h (by decide)

theorem IsWord.semicolon_notMem {w : List Char} (h : IsWord w) : ';' ∉ w := fun hmem =>
  absurd (h.chars _ hmem) (by decide)

theorem isWord_mnemonic (i : Instr) : IsWord i.mnemonic.toList where
  ne_nil := by cases i <;> simp [Instr.mnemonic]
  chars := by cases i <;> simp [Instr.mnemonic, wordChar, Char.isAlphanum]

theorem isDigit_of_mem_decimal {n : Nat} {c : Char} (h : c ∈ Nat.toDigits 10 n) : c.isDigit = true :=
  Nat.isDigit_of_mem_toDigits (by decide) (by decide) h

theorem isWord_toDigits (n : Nat) : IsWord (Nat.toDigits 10 n) where
  ne_nil := Nat.toDigits_ne_nil
  chars := fun c hc => by
    simp [wordChar, Char.isAlphanum, isDigit_of_mem_decimal hc]

theorem IsWord.cons {w : List Char} {c : Char} (hc : wordChar c = true) (h : IsWord w) : IsWord (c :: w) :=
  ⟨List.cons_ne_nil c w, List.forall_mem_cons.mpr ⟨hc, h.chars⟩⟩

theorem isWord_contextText (g : CtxIx) : IsWord (contextText g) := .cons (by decide) (isWord_toDigits _)

theorem isWord_countText (n : Word) : IsWord (countText n) := by
  unfold countText
  split
  · exact .cons (by decide) (isWord_toDigits _)
  · exact isWord_toDigits _

/-! ### The tokens of a line -/

/-- Reading a word puts its characters, in reverse, before those already read. -/
theorem tokenize_word_append {w : List Char} (h : ∀ c ∈ w, wordChar c = true) (rev cs : List Char) :
    tokenize rev (w ++ cs) = tokenize (w.reverse ++ rev) cs := by
  induction w generalizing rev with
  | nil => rfl
  | cons c w ih =>
    obtain ⟨hc, hw⟩ := List.forall_mem_cons.mp h
    obtain ⟨hblank, hcomma, hlbracket, hrbracket, -⟩ := ne_separator_of_wordChar hc
    simp [tokenize, hblank, hcomma, hlbracket, hrbracket, ih hw]

theorem flushWord_reverse {w : List Char} (h : w ≠ []) (ts : List Token) :
    flushWord w.reverse ts = .word w :: ts := by
  unfold flushWord
  split
  next hnil => exact absurd (List.reverse_eq_nil_iff.mp hnil) h
  next => rw [List.reverse_reverse]

theorem tokenize_word {w : List Char} (h : IsWord w) : tokenize [] w = [.word w] := by
  have hread := tokenize_word_append h.chars [] []
  rw [List.append_nil, List.append_nil] at hread
  rw [hread, tokenize, flushWord_reverse h.ne_nil]

theorem tokenize_word_blank {w : List Char} (h : IsWord w) (cs : List Char) :
    tokenize [] (w ++ ' ' :: cs) = .word w :: tokenize [] cs := by
  simp [tokenize_word_append h.chars, tokenize, flushWord_reverse h.ne_nil]

theorem tokenize_word_comma {w : List Char} (h : IsWord w) (cs : List Char) :
    tokenize [] (w ++ ',' :: cs) = .word w :: .comma :: tokenize [] cs := by
  simp [tokenize_word_append h.chars, tokenize, flushWord_reverse h.ne_nil]

theorem tokenize_word_rbracket {w : List Char} (h : IsWord w) (cs : List Char) :
    tokenize [] (w ++ ']' :: cs) = .word w :: .rbracket :: tokenize [] cs := by
  simp [tokenize_word_append h.chars, tokenize, flushWord_reverse h.ne_nil]

theorem tokenize_blank (cs : List Char) : tokenize [] (' ' :: cs) = tokenize [] cs := by
  simp [tokenize, flushWord]

theorem tokenize_lbracket (cs : List Char) : tokenize [] ('[' :: cs) = .lbracket :: tokenize [] cs := by
  simp [tokenize, flushWord]

/-- The operands of formats I and R: two words, a comma and a blank between them. -/
theorem tokenize_two_words {a b : List Char} (ha : IsWord a) (hb : IsWord b) :
    tokenize [] (a ++ ", ".toList ++ b) = [.word a, .comma, .word b] := by
  have hsep : a ++ ", ".toList ++ b = a ++ ',' :: ' ' :: b := List.append_assoc _ _ _
  rw [hsep, tokenize_word_comma ha, tokenize_blank, tokenize_word hb]

/-! ### Numbers and contexts are read back -/

theorem decDigit_of_isDigit {c : Char} (h : c.isDigit = true) : decDigit c = some (c.toNat - '0'.toNat) :=
  if_pos (Char.isDigit_iff_toNat.mp h)

theorem readDigits_of_isDigit {cs : List Char} (h : ∀ c ∈ cs, c.isDigit = true) (m : Nat) :
    readDigits decDigit 10 m cs = some (Nat.ofDigitChars 10 cs m) := by
  induction cs generalizing m with
  | nil => rfl
  | cons c cs ih =>
    obtain ⟨hc, hcs⟩ := List.forall_mem_cons.mp h
    rw [readDigits, decDigit_of_isDigit hc, Nat.ofDigitChars_cons, mul_comm 10]
    exact ih hcs _

theorem readDigits_toDigits (n : Nat) : readDigits decDigit 10 0 (Nat.toDigits 10 n) = some n := by
  rw [readDigits_of_isDigit fun _ => isDigit_of_mem_decimal, Nat.ofDigitChars_ten_toDigits]

/-- A decimal number is not one in hexadecimal. -/
theorem toDigits_ne_hex (n : Nat) (cs : List Char) : Nat.toDigits 10 n ≠ '0' :: 'x' :: cs := fun h =>
  absurd (isDigit_of_mem_decimal (n := n) (c := 'x') (by simp [h])) (by decide)

/-- Nor has it a sign. -/
theorem toDigits_ne_minus (n : Nat) (cs : List Char) : Nat.toDigits 10 n ≠ '-' :: cs := fun h =>
  absurd (isDigit_of_mem_decimal (n := n) (c := '-') (by simp [h])) (by decide)

theorem readNumber_toDigits (n : Nat) : readNumber (Nat.toDigits 10 n) = some n := by
  unfold readNumber
  split
  next hhex => exact absurd hhex (toDigits_ne_hex n _)
  next hdec => rw [← hdec, readDigits_toDigits]
  next hnil => exact absurd hnil Nat.toDigits_ne_nil

theorem readWord_toDigits (x : Word) : readWord (Nat.toDigits 10 x.toNat) = some x := by
  simp only [readWord, readNumber_toDigits, if_pos x.isLt, BitVec.ofNat_toNat, BitVec.setWidth_eq]

theorem readByte_toDigits (b : Byte) : readByte (Nat.toDigits 10 b.toNat) = some b := by
  simp only [readByte, readNumber_toDigits, if_pos b.isLt, BitVec.ofNat_toNat, BitVec.setWidth_eq]

theorem readCount_toDigits {k : Nat} (h : k < 2 ^ 63) :
    readCount (Nat.toDigits 10 k) = some (BitVec.ofNat 64 k) := by
  unfold readCount
  split
  next hhex => exact absurd hhex (toDigits_ne_hex k _)
  next hminus => exact absurd hminus (toDigits_ne_minus k _)
  next => simp only [readNumber_toDigits, if_pos h]

theorem readCount_minus_toDigits {k : Nat} (h : k ≤ 2 ^ 63) :
    readCount ('-' :: Nat.toDigits 10 k) = some (BitVec.ofInt 64 (-k)) := by
  obtain ⟨c, cs, hcs⟩ := List.exists_cons_of_ne_nil (Nat.toDigits_ne_nil (n := k) (b := 10))
  have hread : readDigits decDigit 10 0 (c :: cs) = some k := hcs ▸ readDigits_toDigits k
  simp only [hcs, readCount, hread, if_pos h]

/-- R36: a signed decimal from `-2^63` to `2^63 - 1` is read as the step count it was written for. -/
theorem readCount_countText (n : Word) : readCount (countText n) = some n := by
  have hmsb : n.msb = decide (2 ^ 63 ≤ n.toNat) := BitVec.msb_eq_decide n
  have hlt : n.toNat < 2 ^ 64 := n.isLt
  unfold countText
  split
  next hneg =>
    rw [hmsb, decide_eq_true_eq] at hneg
    rw [readCount_minus_toDigits (by omega)]
    congr 1
    apply BitVec.eq_of_toNat_eq
    rw [BitVec.toNat_ofInt]
    omega
  next hpos =>
    rw [hmsb, decide_eq_true_eq, Nat.not_le] at hpos
    rw [readCount_toDigits hpos, BitVec.ofNat_toNat, BitVec.setWidth_eq]

/-- R36: the sixteen contexts. -/
theorem readContext_contextText (g : CtxIx) : readContext (contextText g) = some g := by
  revert g
  decide

/-! ### Operands by their form -/

theorem operandsU_tokenize (f : CtxIx → Instr) (gd : CtxIx) :
    operandsU f (tokenize [] (contextText gd)) = some (.command (f gd)) := by
  rw [tokenize_word (isWord_contextText gd), operandsU, readContext_contextText]
  rfl

theorem operandsR_tokenize (f : CtxIx → CtxIx → Instr) (gd gs : CtxIx) :
    operandsR f (tokenize [] (contextText gd ++ ", ".toList ++ contextText gs)) = some (.command (f gd gs)) := by
  rw [tokenize_two_words (isWord_contextText gd) (isWord_contextText gs), operandsR, readContext_contextText,
    readContext_contextText]
  rfl

theorem operandsI_tokenize {readX : List Char → Option Word} {x : List Char} {n : Word} (hx : IsWord x)
    (hn : readX x = some n) (f : CtxIx → Word → Instr) (gd : CtxIx) :
    operandsI readX f (tokenize [] (contextText gd ++ ", ".toList ++ x)) = some (.command (f gd n)) := by
  rw [tokenize_two_words (isWord_contextText gd) hx, operandsI, readContext_contextText, hn]
  rfl

theorem byteLanes_toList (opd : Word) : (byteLanes opd).toList =
    [byteLane opd 0, byteLane opd 1, byteLane opd 2, byteLane opd 3, byteLane opd 4, byteLane opd 5, byteLane opd 6,
      byteLane opd 7] := by
  simp [byteLanes, Vector.toList_ofFn, List.ofFn_succ]

/-- R36, R43: the operand field of an operand's lanes is the operand. -/
theorem bytesOperand_byteLane (opd : Word) :
    bytesOperand (byteLane opd 0) (byteLane opd 1) (byteLane opd 2) (byteLane opd 3) (byteLane opd 4) (byteLane opd 5)
      (byteLane opd 6) (byteLane opd 7) = opd := by
  have hpack := pack8_eq_append (byteLanes opd)
  rw [pack8_byteLanes] at hpack
  simpa [byteLanes, bytesOperand] using hpack.symm

/-- R36: eight byte values in brackets are read as the operand whose lanes they are. -/
theorem operandsBytes_tokenize (gd : CtxIx) (opd : Word) :
    operandsBytes (tokenize [] (contextText gd ++ ", [".toList ++ bytesText (byteLanes opd).toList ++ [']'])) =
      some (.command (.seedb gd opd)) := by
  have hsep (bs : List Char) : contextText gd ++ ", [".toList ++ bs ++ [']'] =
      contextText gd ++ ',' :: ' ' :: '[' :: (bs ++ [']']) := by simp
  rw [hsep, tokenize_word_comma (isWord_contextText gd), tokenize_blank, tokenize_lbracket, byteLanes_toList]
  simp only [bytesText, List.append_assoc, List.cons_append, tokenize_word_comma (isWord_toDigits _),
    tokenize_word_rbracket (isWord_toDigits _), tokenize, flushWord, operandsBytes, readContext_contextText,
    readByte_toDigits]
  exact congrArg (fun x => some (Source.command (.seedb gd x))) (bytesOperand_byteLane opd)

/-! ### Lines -/

/-- The part of a command's line after the mnemonic and the blank. -/
def operandsText : Instr → List Char
  | .seed64 gd imm => contextText gd ++ ", ".toList ++ Nat.toDigits 10 imm.toNat
  | .seedb gd opd => contextText gd ++ ", [".toList ++ bytesText (byteLanes opd).toList ++ [']']
  | .step gd | .next32 gd | .next64 gd | .rdstate gd => contextText gd
  | .skip gd n => contextText gd ++ ", ".toList ++ countText n
  | .newstream gd gs | .clone gd gs => contextText gd ++ ", ".toList ++ contextText gs

theorem commandText_eq (i : Instr) : commandText i = i.mnemonic.toList ++ ' ' :: operandsText i := by
  unfold commandText operandsText
  cases i <;> simp [Instr.mnemonic]

theorem semicolon_notMem_bytesText (bs : List Byte) : ';' ∉ bytesText bs := by
  induction bs using bytesText.induct with
  | case1 => exact List.not_mem_nil
  | case2 b => exact (isWord_toDigits _).semicolon_notMem
  | case3 b b' bs ih => simp [bytesText, (isWord_toDigits _).semicolon_notMem, ih]

/-- A command's line holds no comment. -/
theorem semicolon_notMem_commandText (i : Instr) : ';' ∉ commandText i := by
  have hmnemonic := (isWord_mnemonic i).semicolon_notMem
  have hcontext (g : CtxIx) := (isWord_contextText g).semicolon_notMem
  have hnumber (n : Nat) := (isWord_toDigits n).semicolon_notMem
  have hcount (n : Word) := (isWord_countText n).semicolon_notMem
  rw [commandText_eq]
  cases i <;> simp [operandsText, hmnemonic, hcontext, hnumber, hcount, semicolon_notMem_bytesText]

theorem stripComment_of_notMem {cs : List Char} (h : ';' ∉ cs) : stripComment cs = cs :=
  List.takeWhile_eq_self_iff.mpr fun c hc => by simpa using ne_of_mem_of_not_mem hc h

/-- R36: the mnemonic chooses the form of the operands, which are read as the command's own. -/
theorem readCommand_operandsText (i : Instr) :
    readCommand i.mnemonic.toList (tokenize [] (operandsText i)) = some (.command i) := by
  simp only [readCommand, String.toList_inj]
  cases i <;> simp only [Instr.mnemonic, String.reduceEq, if_false, if_true]
  case seed64 gd imm => exact operandsI_tokenize (isWord_toDigits _) (readWord_toDigits imm) .seed64 gd
  case seedb gd opd => exact operandsBytes_tokenize gd opd
  case skip gd n => exact operandsI_tokenize (isWord_countText n) (readCount_countText n) .skip gd
  case step gd | next32 gd | next64 gd | rdstate gd => exact operandsU_tokenize _ gd
  case newstream gd gs | clone gd gs => exact operandsR_tokenize _ gd gs

/-- Settles O6: a line without a comment is its mnemonic and its operands, and these are read back. -/
theorem assemblerReadsEveryCommand : Obligations.AssemblerReadsEveryCommand := by
  intro i
  rw [assembleLine, stripComment_of_notMem (semicolon_notMem_commandText i), commandText_eq,
    tokenize_word_blank (isWord_mnemonic i)]
  exact congrArg (Option.bind · expandSource) (readCommand_operandsText i)

end Sys2Proof.Machine
end

section
/-! PROOFS. The sequencers (42_skip.md R54, 40_seeding.md R44), the operations they make (70_reset_and_hazards.md R76), and the
short orbits of states with trailing zeros (R75). -/

namespace Sys2Proof.Machine

/-! ### The loop of the skip sequencer (42_skip.md R54) -/

/-- R54: the exponent loaded is the magnitude of the signed count. -/
theorem skipSeqInit_cnt_toNat (n : Word) : (skipSeqInit n).cnt.toNat = (sval n).natAbs := by
  have hlt : n.toNat < 2 ^ 64 := n.isLt
  unfold skipSeqInit sval
  split
  next hneg =>
    have hpos : 2 ^ 63 ≤ n.toNat := by simpa [BitVec.msb_eq_decide] using hneg
    have hnot : ~~~n + 1 = -n := (BitVec.neg_eq_not_add n).symm
    rw [hnot, BitVec.toNat_neg]
    omega
  next => rw [Int.natAbs_natCast]

/-- A number other than 0 has one significant bit more than its half. -/
theorem size_eq_size_half_succ {m : Nat} (h : m ≠ 0) : Nat.size m = Nat.size (m / 2) + 1 := by
  have hsize := Nat.size_bit (b := m.bodd) (n := m.div2) (by rwa [Nat.bit_bodd_div2])
  rwa [Nat.bit_bodd_div2, Nat.div2_val] at hsize

/-- R54: the loop runs as many times as `CNT` has significant bits. -/
theorem skipSeqIterations_eq_size {k : Nat} {r : SkipSeq} (h : r.cnt.toNat < 2 ^ k) :
    skipSeqIterations k r = Nat.size r.cnt.toNat := by
  induction k generalizing r with
  | zero =>
    have hzero : r.cnt.toNat = 0 := by omega
    rw [skipSeqIterations, hzero, Nat.size_zero]
  | succ k ih =>
    unfold skipSeqIterations
    split
    next hzero => rw [hzero]; rfl
    next hne =>
      have hne' : r.cnt.toNat ≠ 0 := fun hzero => hne (BitVec.eq_of_toNat_eq hzero)
      have hhalf : (skipSeqIter r).cnt.toNat < 2 ^ k := by rw [skipSeqIter_cnt_toNat]; omega
      rw [ih hhalf, skipSeqIter_cnt_toNat, ← size_eq_size_half_succ hne']

theorem skipSeqIterations_init (n : Word) : skipSeqIterations 64 (skipSeqInit n) = Nat.size (sval n).natAbs := by
  rw [skipSeqIterations_eq_size (skipSeqInit n).cnt.isLt, skipSeqInit_cnt_toNat]

theorem skipSeqIterations_init_le (n : Word) : skipSeqIterations 64 (skipSeqInit n) ≤ 64 := by
  rw [skipSeqIterations_init, Nat.size_le, ← skipSeqInit_cnt_toNat]
  exact (skipSeqInit n).cnt.isLt

theorem natAbs_sval_ne_zero {n : Word} (h : n ≠ 0) : (sval n).natAbs ≠ 0 := by
  have hlt : n.toNat < 2 ^ 64 := n.isLt
  have hne : n.toNat ≠ 0 := fun hzero => h (BitVec.eq_of_toNat_eq hzero)
  unfold sval
  split <;> omega

/-- Settles O21: the product `ACC * BASE^CNT` is kept by the loop, and each iteration takes one significant bit off `CNT`. -/
theorem skipSequencerComputesNetmul : Obligations.SkipSequencerComputesNetmul := by
  intro n
  refine ⟨skipSeqRun_acc n, skipSeqLoop_cnt (skipSeqInit n).cnt.isLt, fun k => ?_, skipSeqInit_cnt_toNat n,
    skipSeqIterations_init_le n, ?_, fun hn => ?_, fun gd s hgd hV => ?_⟩
  · exact (skipSeqLoop_product k (skipSeqInit n)).trans (skipSeqInit_product n)
  · rw [skipSeqIterations_init]
    exact Nat.lt_size_self _
  · have hpos : 0 < Nat.size (sval n).natAbs := Nat.size_pos.mpr (Nat.pos_of_ne_zero (natAbs_sval_ne_zero hn))
    rw [skipSeqIterations_init, ← Nat.lt_size]
    omega
  · exact exec_of_check_none (i := .skip gd n) (checkContext_eq_none.mpr ⟨hgd, hV⟩)

/-! ### The loop of the seeding sequencer (40_seeding.md R44) -/

/-- What the loop of R44 keeps: before the iteration with `SIDX = k`, `SACC` is the low `8*k` bits of the operand. -/
structure SeedSeq.HoldsLow (r : SeedSeq) (opd : Word) (k : Nat) : Prop where
  sidx : r.sidx.toNat = k
  bits : ∀ j, r.sacc.getLsbD j = (decide (j < 8 * k) && opd.getLsbD j)

theorem seedSeqInit_holdsLow (opd : Word) : seedSeqInit.HoldsLow opd 0 :=
  ⟨rfl, fun j => by simp [seedSeqInit]⟩

/-- R44: an iteration takes in the next byte. -/
theorem seedSeqIter_holdsLow {opd : Word} {r : SeedSeq} {k : Nat} (h : r.HoldsLow opd k) (hk : k < 8) :
    (seedSeqIter opd r).HoldsLow opd (k + 1) := by
  obtain ⟨hsidx, hbits⟩ := h
  refine ⟨?_, fun j => ?_⟩
  · rw [seedSeqIter, BitVec.toNat_add, hsidx]
    exact Nat.mod_eq_of_lt (show k + 1 < 16 by omega)
  · simp only [seedSeqIter, hsidx, byteLane, BitVec.getLsbD_xor, hbits]
    obtain hbelow | hlane | habove : j < 8 * k ∨ (8 * k ≤ j ∧ j < 8 * k + 8) ∨ 8 * k + 8 ≤ j := by omega
    · rw [getLsbD_shiftedByte_outside _ (.inl hbelow)]
      simp [hbelow, show j < 8 * (k + 1) by omega]
    · obtain ⟨i, rfl⟩ := Nat.exists_eq_add_of_le hlane.1
      rw [getLsbD_shiftedByte_lane _ (by omega)]
      simp [show i < 8 by omega, show 8 * k + i < 8 * (k + 1) by omega]
    · rw [getLsbD_shiftedByte_outside _ (.inr habove)]
      simp [show ¬ j < 8 * k by omega, show ¬ j < 8 * (k + 1) by omega]

theorem SeedSeq.HoldsLow.sidx_ne {opd : Word} {r : SeedSeq} {k : Nat} (h : r.HoldsLow opd k) (hk : k < 8) :
    r.sidx ≠ 8 := by
  intro heq
  have hsidx := h.sidx
  rw [heq] at hsidx
  exact absurd hsidx hk.ne'

theorem seedSeqLoop_holdsLow {opd : Word} {r : SeedSeq} {k m : Nat} (h : r.HoldsLow opd m) (hk : m + k ≤ 8) :
    (seedSeqLoop opd k r).HoldsLow opd (m + k) := by
  induction k generalizing r m with
  | zero => exact h
  | succ k ih =>
    rw [seedSeqLoop, if_neg (h.sidx_ne (by omega)), ← Nat.succ_add_eq_add_succ]
    exact ih (seedSeqIter_holdsLow h (by omega)) (by omega)

theorem seedSeqIterations_of_holdsLow {opd : Word} {r : SeedSeq} {k m : Nat} (h : r.HoldsLow opd m) (hk : m + k = 8) :
    seedSeqIterations opd k r = k := by
  induction k generalizing r m with
  | zero => rfl
  | succ k ih =>
    rw [seedSeqIterations, if_neg (h.sidx_ne (by omega)), ih (seedSeqIter_holdsLow h (by omega)) (by omega)]

theorem SeedSeq.HoldsLow.sacc_toNat {opd : Word} {r : SeedSeq} {k : Nat} (h : r.HoldsLow opd k) :
    r.sacc.toNat = opd.toNat % 2 ^ (8 * k) :=
  Nat.eq_of_testBit_eq fun j => (h.bits j).trans (Nat.testBit_mod_two_pow _ _ _).symm

theorem seedSeqIterations_init (opd : Word) : seedSeqIterations opd 8 seedSeqInit = 8 :=
  seedSeqIterations_of_holdsLow (seedSeqInit_holdsLow opd) (Nat.zero_add 8)

/-- Settles O22: each of the eight iterations takes in one byte of the operand. -/
theorem seedSequencerComputesSeed : Obligations.SeedSequencerComputesSeed := by
  refine fun opd => ⟨seedSeqRun_sacc opd, fun k hk => ?_, seedSeqIterations_init opd⟩
  have hlow : (seedSeqLoop opd k seedSeqInit).HoldsLow opd k := by
    simpa only [Nat.zero_add] using seedSeqLoop_holdsLow (seedSeqInit_holdsLow opd) (k := k) (by omega)
  exact ⟨hlow.sacc_toNat, hlow.sidx⟩

/-! ### Counts of operations (70_reset_and_hazards.md R76) -/

/-- R76: the iterations that multiply into `ACC` are the 1 bits of `CNT`. -/
theorem skipSeqAccMults_eq_bits {k : Nat} {r : SkipSeq} :
    skipSeqAccMults k r = ((List.range k).filter fun j => r.cnt.toNat.testBit j).length := by
  induction k generalizing r with
  | zero => rfl
  | succ k ih =>
    have hbit : r.cnt.getLsbD 0 = r.cnt.toNat.testBit 0 := rfl
    have hhalf (j : Nat) : (skipSeqIter r).cnt.toNat.testBit j = r.cnt.toNat.testBit (j + 1) := by
      rw [skipSeqIter_cnt_toNat, Nat.testBit_succ]
    unfold skipSeqAccMults
    split
    next hzero => simp [hzero]
    next =>
      rw [ih, List.range_succ_eq_map, List.filter_cons, List.filter_map, hbit]
      simp only [Function.comp_def, hhalf]
      split <;> simp

theorem skipSeqAccMults_init (n : Word) : skipSeqAccMults 64 (skipSeqInit n) =
    ((List.range 64).filter fun j => (sval n).natAbs.testBit j).length := by
  rw [skipSeqAccMults_eq_bits, skipSeqInit_cnt_toNat]

theorem skipSeqAccMults_init_le (n : Word) : skipSeqAccMults 64 (skipSeqInit n) ≤ 64 := by
  rw [skipSeqAccMults_eq_bits]
  exact (List.length_filter_le _ _).trans_eq List.length_range

/-- Settles O24: the counts of a skip are those of its sequencer's loop, those of `SEEDB` its eight iterations. -/
theorem operationCounts : Obligations.OperationCounts := by
  refine ⟨fun g h x => ⟨rfl, rfl, rfl, rfl, seedSeqIterations_init x, rfl, rfl, rfl, rfl⟩, ?_⟩
  intro g n w c
  have hiterations : c.iterations = skipSeqIterations 64 (skipSeqInit n) := rfl
  have hmults : c.mults = skipSeqIterations 64 (skipSeqInit n) + skipSeqAccMults 64 (skipSeqInit n) + 1 := rfl
  have hle := skipSeqIterations_init_le n
  have hle' := skipSeqAccMults_init_le n
  refine ⟨skipSeqIterations_init n, ?_, by omega, hle, ?_⟩
  · rw [hmults, hiterations, skipSeqAccMults_init]
  · rintro rfl
    rfl

/-! ### Short orbits (70_reset_and_hazards.md R75) -/

/-- Trailing zeros of two factors that reach 64 make the product 0. -/
theorem mul_two_pow_eq_zero {x : Word} {k j : Nat} (hx : 2 ^ k ∣ x.toNat) (hkj : 64 ≤ k + j) : x * 2 ^ j = 0 := by
  have hdvd : 2 ^ 64 ∣ x.toNat * 2 ^ j :=
    (pow_dvd_pow 2 hkj).trans (pow_add 2 k j ▸ Nat.mul_dvd_mul_right hx (2 ^ j))
  apply BitVec.eq_of_toNat_eq
  rw [BitVec.toNat_mul, BitVec.toNat_pow, Nat.mul_mod_mod]
  exact Nat.mod_eq_zero_of_dvd hdvd

/-- A multiplier that is 1 in its low `j` bits fixes what has zeros in all but the top `j`. -/
theorem mul_one_add_two_pow_mul {x : Word} {k j : Nat} (hx : 2 ^ k ∣ x.toNat) (hkj : 64 ≤ k + j) (u : Word) :
    x * (1 + 2 ^ j * u) = x := by
  rw [mul_add, mul_one, ← mul_assoc, mul_two_pow_eq_zero hx hkj, zero_mul, add_zero]

/-- Settles O23: `MULT` to a power of two differs from 1 by a multiple of a power of two that the trailing zeros cancel. -/
theorem shortOrbitsReturn : Obligations.ShortOrbitsReturn := by
  refine ⟨fun x k hk hx => ?_, fun x hx => ?_, fun x hx => ?_⟩
  · obtain ⟨u, hu⟩ := MULT_pow_two_pow_succ (61 - k)
    have hexp : 62 - k = 61 - k + 1 := by omega
    rw [powMul_eq_pow, hexp, hu, mul_one_add_two_pow_mul hx (by omega)]
  · obtain ⟨u, hu⟩ := MULT_pow_two_pow_succ 0
    have htwice : update (update x) = x * MULT ^ 2 ^ (0 + 1) := by simp only [update]; ring
    rw [htwice, hu, mul_one_add_two_pow_mul hx (by omega)]
  · have hmult : MULT = 1 + 2 ^ 1 * 0x0800000000000001 := by decide
    rw [update, mul_comm, hmult, mul_one_add_two_pow_mul hx (by omega)]

end Sys2Proof.Machine
end

section
/-! PROOFS. Commands against sequences of commands: `NEXT64` (41_step_output.md R49), `NEWSTREAM` (43_stream_clone_read.md
R57), skips (42_skip.md R55), and the twins of a `CLONE` (R58). -/

namespace Sys2Proof.Machine

/-! ### `NEXT64` and `NEWSTREAM` (41_step_output.md R49, 43_stream_clone_read.md R57) -/

/-- R22, R48, R49: the low halves of two `NEXT32` data are the halves of the `NEXT64` datum. -/
theorem output64_eq_low_halves (x : Word) :
    output64 x = ((permute (update x)).setWidth 64).extractLsb' 0 32 ++
      ((permute (update (update x))).setWidth 64).extractLsb' 0 32 := by
  have hlow (o : Output) : (o.setWidth 64).extractLsb' 0 32 = o := by
    rw [setWidth_output]
    exact BitVec.extractLsb'_append_eq_right
  rw [hlow, hlow, output64, joinHalves]

/-- Settles O34: the second `NEXT32` starts from the state the first one wrote. -/
theorem next64IsTwoNext32 : Obligations.Next64IsTwoNext32 := by
  intro gd s hgd hV
  have hfirst := exec_next32 hgd hV
  have hsecond := exec_next32 (s := (s.setG gd (update (s.getG gd))).respond .ok
    ((permute (update (s.getG gd))).setWidth 64)) (gd := gd) hgd (by simpa using hV)
  refine ⟨_, _, _, _, _, exec_next64 hgd hV, hfirst, hsecond, rfl, rfl, ?_, ?_, rfl⟩
  · rw [State.respond_responses, State.setG_responses, output64_eq_low_halves, State.respond_getG,
      State.getG_setG_self]
    rfl
  · simp

/-- R41 of a context that exists. -/
theorem exec_seed64 {s : State} {gd : CtxIx} (v : Word) (hgd : gd.toNat < s.params.ngen) :
    exec (.seed64 gd v) s = .next (((s.setG gd (seed v)).setV gd).respond .ok 0) :=
  exec_of_check_none (i := .seed64 gd v) (checkTarget_eq_none.mpr hgd)

/-- Settles O35: both write the parent's second update and then the seed of its output. -/
theorem newstreamIsNext64ThenSeed64 : Obligations.NewstreamIsNext64ThenSeed64 := by
  intro gd gs s _ hgd hgs hV
  refine ⟨_, _, _, output64 (s.getG gs), exec_newstream hgd hgs hV, exec_next64 hgs hV, rfl, exec_seed64 _ ?_, rfl, rfl⟩
  exact hgd

/-! ### Skips (42_skip.md R55) -/

/-- R55: the contexts after two skips are those after the skip by the sum. -/
theorem exec_skip_skip {s t : State} {gd : CtxIx} {a : Word} (b : Word) (hgd : gd.toNat < s.params.ngen)
    (hV : s.getV gd = true) (ht : exec (.skip gd a) s = .next t) :
    ∃ u, exec (.skip gd b) t = .next u ∧ u.g = (s.setG gd (s.getG gd * netmul (a + b))).g ∧ u.v = s.v := by
  rw [exec_skip a hgd hV] at ht
  cases ht
  refine ⟨_, exec_skip b hgd (by simpa using hV), ?_, rfl⟩
  simp [netmul_add, mul_assoc]

/-- Settles O37: two skips are the skip by the sum, and a skip by 0 leaves every context. -/
theorem skipsComposeAndInvert : Obligations.SkipsComposeAndInvert := by
  intro gd a b s hgd hV
  have ht := exec_skip a hgd hV
  obtain ⟨u, hu, hug, huv⟩ := exec_skip_skip (-a) hgd hV ht
  obtain ⟨x, hx, hxg, hxv⟩ := exec_skip_skip b hgd hV ht
  refine ⟨_, u, x, _, ht, hu, hx, exec_skip (a + b) hgd hV, ?_, huv, hxg, hxv⟩
  rw [hug, add_neg_cancel, netmul_zero, mul_one, State.setG_getG]

/-! ### The twins of a `CLONE` (43_stream_clone_read.md R58) -/

/-- Two states in one of which context `gd` stands where context `gs` stands in the other, with the same responses. -/
structure Twins (gd gs : CtxIx) (a b : State) : Prop where
  params    : a.params = b.params
  inRange   : gd.toNat < a.params.ngen ↔ gs.toNat < b.params.ngen
  g         : a.getG gd = b.getG gs
  v         : a.getV gd = b.getV gs
  responses : a.responses = b.responses

theorem Twins.checkIndex_eq {gd gs : CtxIx} {a b : State} (h : Twins gd gs a b) : checkIndex gd a = checkIndex gs b := by
  simp only [checkIndex, h.inRange]

theorem Twins.checkContext_eq {gd gs : CtxIx} {a b : State} (h : Twins gd gs a b) :
    checkContext gd a = checkContext gs b := by
  simp only [checkContext, h.checkIndex_eq, checkSeeded, h.v]

/-- A one-context command meets the same check in twins. -/
theorem Twins.checkOf_eq {gd gs : CtxIx} {a b : State} (h : Twins gd gs a b) {i : Instr} (hi : i.names.length = 1) :
    checkOf (retarget gd i) a = checkOf (retarget gs i) b := by
  cases i
  case newstream | clone => simp [Instr.names] at hi
  case seed64 => exact h.checkIndex_eq
  case seedb => simp only [retarget, checkOf, checkSeedb, checkTarget, h.checkIndex_eq, h.params]
  all_goals exact h.checkContext_eq

/-- A one-context command returns the same data in twins. -/
theorem Twins.bodyOf_snd_eq {gd gs : CtxIx} {a b : State} (h : Twins gd gs a b) {i : Instr} (hi : i.names.length = 1) :
    (bodyOf (retarget gd i) a).2 = (bodyOf (retarget gs i) b).2 := by
  cases i
  case newstream | clone => simp [Instr.names] at hi
  all_goals simp only [retarget, bodyOf, h.g]

theorem Twins.respond {gd gs : CtxIx} {a b : State} (h : Twins gd gs a b) (st : Status) (d : Word) :
    Twins gd gs (a.respond st d) (b.respond st d) :=
  ⟨h.params, h.inRange, h.g, h.v, congrArg (· ++ [responseWord st d]) h.responses⟩

/-- A one-context command writes the same state, and sets the same valid bit, in twins. -/
theorem Twins.bodyOf_twins {gd gs : CtxIx} {a b : State} (h : Twins gd gs a b) {i : Instr} (hi : i.names.length = 1) :
    Twins gd gs (bodyOf (retarget gd i) a).1 (bodyOf (retarget gs i) b).1 where
  params := by simp only [bodyOf_params, h.params]
  inRange := by simp only [bodyOf_params, h.inRange]
  g := by
    cases i
    case newstream | clone => simp [Instr.names] at hi
    all_goals simp [retarget, bodyOf, h.g]
  v := by
    have hseeds : gd ∈ (retarget gd i).seeds ↔ gs ∈ (retarget gs i).seeds := by
      cases i
      case newstream | clone => simp [Instr.names] at hi
      all_goals simp [retarget, Instr.seeds]
    simp only [bodyOf_getV, h.v, hseeds]
  responses := by simp only [bodyOf_responses, h.responses]

theorem Twins.exec_twins {gd gs : CtxIx} {a b : State} (h : Twins gd gs a b) {i : Instr} (hi : i.names.length = 1) :
    ∃ a' b', exec (retarget gd i) a = .next a' ∧ exec (retarget gs i) b = .next b' ∧ Twins gd gs a' b' := by
  have hcongr := h.checkOf_eq hi
  cases hcheck : checkOf (retarget gd i) a with
  | some st => exact ⟨_, _, exec_of_check_some hcheck, exec_of_check_some (hcongr ▸ hcheck), h.respond st 0⟩
  | none =>
    refine ⟨_, _, exec_of_check_none hcheck, exec_of_check_none (hcongr ▸ hcheck), ?_⟩
    rw [h.bodyOf_snd_eq hi]
    exact (h.bodyOf_twins hi).respond .ok _

/-- R10: a one-context command writes no other context than its own. -/
theorem notMem_writes_retarget {g j : CtxIx} (hj : j ≠ g) {i : Instr} (hi : i.names.length = 1) :
    j ∉ (retarget g i).writes := by
  cases i
  case newstream | clone => simp [Instr.names] at hi
  all_goals simp [retarget, Instr.writes, hj]

/-- R17, R58: the same one-context commands, on `gd` in the one twin and on `gs` in the other, keep them twins and leave the
context not used where it was. -/
theorem execAll_twins {gd gs : CtxIx} (hne : gd ≠ gs) (is : List Instr) {a b : State} (h : Twins gd gs a b)
    (his : ∀ i ∈ is, i.names.length = 1) :
    ∃ a' b', execAll (is.map (retarget gd)) a = .next a' ∧ execAll (is.map (retarget gs)) b = .next b' ∧
      Twins gd gs a' b' ∧ a'.getG gs = a.getG gs ∧ b'.getG gd = b.getG gd := by
  induction is generalizing a b with
  | nil => exact ⟨a, b, rfl, rfl, h, rfl, rfl⟩
  | cons i is ih =>
    obtain ⟨hi, his'⟩ := List.forall_mem_cons.mp his
    obtain ⟨a₁, b₁, ha, hb, h₁⟩ := h.exec_twins hi
    obtain ⟨a', b', ha', hb', h', hgs, hgd⟩ := ih h₁ his'
    obtain ⟨hgs₁, -⟩ := exec_frame_context ha (notMem_writes_retarget hne.symm hi)
    obtain ⟨hgd₁, -⟩ := exec_frame_context hb (notMem_writes_retarget hne hi)
    refine ⟨a', b', ?_, ?_, h', hgs.trans hgs₁, hgd.trans hgd₁⟩
    · simpa only [List.map_cons, execAll, ha] using ha'
    · simpa only [List.map_cons, execAll, hb] using hb'

/-- Settles O38: after the `CLONE` the state is its own twin, and one-context commands keep twins. -/
theorem cloneTwinsAgree : Obligations.CloneTwinsAgree := by
  intro gd gs is s t hne hgd hgs hV his ht
  rw [exec_clone hgd hgs hV] at ht
  cases ht
  have htwins : Twins gd gs (((s.setG gd (s.getG gs)).setV gd).respond .ok 0)
      (((s.setG gd (s.getG gs)).setV gd).respond .ok 0) :=
    ⟨rfl, iff_of_true hgd hgs, by simp [hne.symm], by simp [hne.symm, hV], rfl⟩
  obtain ⟨a, b, ha, hb, h, hgs', hgd'⟩ := execAll_twins hne is htwins his
  exact ⟨a, b, ha, hb, h.responses, h.g, hgs', hgd'⟩

end Sys2Proof.Machine
end
